-- ==== Sys2Proof/Word.lean ====
section
/-! DEFINITION. The value widths of 00_scope section 6 and the row, a sequence of 16-bit words. -/

namespace Sys2Proof

/-- `u8`: a byte of the pixel buffer or of a row. -/
abbrev U8 := BitVec 8

/-- `u16`: a drive pattern, a word of `SCRATCH`, the cycle counter. -/
abbrev U16 := BitVec 16

/-- `u32`: a command word, `STATUS`, `FINFO`, the row delay. -/
abbrev U32 := BitVec 32

/-- A row: `ROW_WORDS` values of type `u16`, index 0 first (00_scope section 6, 20_memory R36). -/
abbrev Row := List U16

end Sys2Proof
end

