-- ==== Sys2Proof/Config.lean ====
section
/-! DEFINITION. The configuration record of 00_scope R6 to R9: what is fixed of one block while it runs, and the
one uninterpreted function of the model, the transport's reorder transform (R78). -/

namespace Sys2Proof

/-- `FB_BIT_ORDER` (00_scope R9, 20_memory R34): which bit of a pixel-buffer byte is "bit `index%8`". -/
inductive BitOrder where
  | lsb0
  | msb0
deriving DecidableEq, Repr

/-- `ROW_WORD_ORDER` (00_scope R9, 20_memory R36): byte order of a 16-bit pattern in a row viewed as bytes. -/
inductive ByteOrder where
  | little
  | big
deriving DecidableEq, Repr

/-- Which function `REORDER` is (00_scope R9, 42_row_compositor R78). DESIGN CHOICE, safe (log 5): the name of a
function as plain data. `uninterpreted` is a function nothing is known of, so a claim about every configuration is
a claim about every fixed, total, length-preserving function of the row; the other two are instances R78 admits. -/
inductive Reorder where
  /-- any fixed total length-preserving function of the row: `Config.reorderWord` gives its words -/
  | uninterpreted
  /-- the identity, the instance the vectors of 95_test_vectors use -/
  | identity
  /-- byte `k` of the result is byte `p[k]` of the row: R78's optional hypothesis when `p` is a permutation -/
  | bytePermutation (p : List Nat)
deriving DecidableEq, Repr

/-- The configuration record (00_scope section 4). DESIGN CHOICE, safe (log 1): State carries one, and no step
changes it, so that every claim holds for every configuration. -/
structure Config where
  /-- `W`, panel pixel width -/
  width : Nat
  /-- `H`, panel pixel height -/
  height : Nat
  /-- `ROW_DELAY` -/
  rowDelay : U32
  /-- `FB_LEN`, the length in bytes of the memory attached as the pixel buffer -/
  fbLen : Nat
  fbBitOrder : BitOrder
  rowWordOrder : ByteOrder
  reorder : Reorder
  /-- how many staging slots the transport has beyond two -/
  extraSlots : Nat
deriving DecidableEq, Repr

namespace Config

/-- `ROW_BYTES = ceil(W/4)` (R6). -/
def rowBytes (c : Config) : Nat := (c.width + 3) / 4

/-- `FB_BYTES = ceil(W*H/8)` (R6). -/
def fbBytes (c : Config) : Nat := (c.width * c.height + 7) / 8

/-- `ROW_WORDS = ROW_BYTES / 2` (R6). -/
def rowWords (c : Config) : Nat := c.rowBytes / 2

/-- `FB_ROW_BYTES = W / 8` (R6). -/
def fbRowBytes (c : Config) : Nat := c.width / 8

/-- `NUM_SLOTS`, a natural `>= 2` by its type (R9); no rule of the block reads it. -/
def numSlots (c : Config) : Nat := c.extraSlots + 2

/-- A FREE VALUE (log 5): word `j` of the reordered row, for the `uninterpreted` reorder transform. It has no body,
so nothing can be proved of it: 42_row_compositor R78, "an opaque in-place transform". -/
opaque reorderWord : Row → Nat → U16

/-- The representative configuration of R6 and the defaults of R8 and R9. DESIGN CHOICE, unsafe for a claim that
rests on one of its values (log 2): the spec names 960 x 540 only as representative. -/
def representative : Config where
  width := 960
  height := 540
  rowDelay := 120
  fbLen := 64800
  fbBitOrder := .lsb0
  rowWordOrder := .little
  reorder := .uninterpreted
  extraSlots := 0

/-- `DEFAULT_CYCLES`, a parameter of the assembler with default 16 (R8). -/
def defaultCycles : Nat := 16

end Config

end Sys2Proof
end

