-- ==== Sys2Proof/Syntax.lean ====
section
/-! DEFINITION. The command set DWX-1: one constructor per row of opcode_table.json (30_encoding R50, R51, R55). -/

namespace Sys2Proof

/-- The five commands with their decoded operands, in the order of R55. A Boolean operand is `true` for the bit 1:
black, or inverse (10_state R15, 30_encoding R50). The fields have their encoded widths, so every term is a legal
command: R54, "any `N` including 0, either value of `V` and `A`". -/
inductive Instr where
  /-- `clear(buffer)` -/
  | clear
  /-- `fill(buffer, value)` -/
  | fill (v : Bool)
  /-- `set_pixel(buffer, x, y, value)` -/
  | setpx (v : Bool) (y x : BitVec 12)
  /-- `flash(color, cycles)` -/
  | flash (a : Bool) (n : U16)
  /-- `render(buffer, cycles, inverse)` -/
  | render (a : Bool) (n : U16)
deriving DecidableEq, Repr

end Sys2Proof
end

