-- ==== Sys2Proof/WellFormed.lean ====
section
/-! DEFINITION. What is checked: the configuration (00_scope R7, R9), a command's operands against the panel
(30_encoding R54), and a line of assembly (R56). -/

namespace Sys2Proof

namespace Config

/-- "A configuration is admitted only if `W mod 8 = 0`, `8 <= W <= 4096` and `1 <= H <= 4096`" (00_scope R7). -/
def wf (c : Config) : Bool :=
  decide (c.width % 8 = 0) && decide (8 ≤ c.width) && decide (c.width ≤ 4096) &&
    decide (1 ≤ c.height) && decide (c.height ≤ 4096)

/-- `FB_LEN = FB_BYTES` (00_scope R9, 60_exceptions R104): the memory attached is exactly the pixel buffer. -/
def fbAttached (c : Config) : Bool := decide (c.fbLen = c.fbBytes)

end Config

/-- The operands of a command lie on the panel (30_encoding R54): only SETPX has operands that may not. -/
def Instr.onPanel (c : Config) : Instr → Bool
  | .clear => true
  | .fill _ => true
  | .setpx _ y x => decide (x.toNat < c.width) && decide (y.toNat < c.height)
  | .flash _ _ => true
  | .render _ _ => true

/-- A Boolean or colour operand as it is spelled in assembly (30_encoding R56). -/
inductive AsmBool where
  | num (n : Nat)
  | isFalse
  | isTrue
  | white
  | black
deriving DecidableEq, Repr

/-- One line of assembly, operands not yet checked (30_encoding R56, R57). -/
inductive AsmLine where
  | clear
  | fill (v : AsmBool)
  | setpx (x y : Nat) (v : AsmBool)
  | flash (c : AsmBool) (n : Nat)
  | render (n : Nat) (i : AsmBool)
  /-- `FLASH c` -/
  | flashDefault (c : AsmBool)
  /-- `RENDER` -/
  | renderDefault
  /-- `RENDER n` -/
  | renderNormal (n : Nat)
  /-- `WHITEWASH` -/
  | whitewash
deriving DecidableEq, Repr

/-- The spellings of FILL's and SETPX's `v`: `0`, `1`, `false`, `true`, `white`, `black`. -/
def AsmBool.valueOk : AsmBool → Bool
  | .num n => decide (n < 2)
  | .isFalse => true
  | .isTrue => true
  | .white => true
  | .black => true

/-- The spellings of FLASH's `c`: `white`, `black`, `0`, `1`. -/
def AsmBool.colourOk : AsmBool → Bool
  | .num n => decide (n < 2)
  | .isFalse => false
  | .isTrue => false
  | .white => true
  | .black => true

/-- The spellings of RENDER's `i`: `0`, `1`, `false`, `true`. -/
def AsmBool.inverseOk : AsmBool → Bool
  | .num n => decide (n < 2)
  | .isFalse => true
  | .isTrue => true
  | .white => false
  | .black => false

/-- "The assembler refuses an operand that does not fit its field (`x`, `y` above 4095; `n` above 65535; `v`, `c`,
`i` other than the listed spellings). It does not check `x < W` or `y < H`" (30_encoding R56). -/
def AsmLine.wf : AsmLine → Bool
  | .clear => true
  | .fill v => v.valueOk
  | .setpx x y v => decide (x ≤ 4095) && decide (y ≤ 4095) && v.valueOk
  | .flash c n => c.colourOk && decide (n ≤ 65535)
  | .render n i => decide (n ≤ 65535) && i.inverseOk
  | .flashDefault c => c.colourOk
  | .renderDefault => true
  | .renderNormal n => decide (n ≤ 65535)
  | .whitewash => true

end Sys2Proof
end

