-- ==== Sys2Proof/Decode.lean ====
section
/-! DEFINITION. The decoder and the encoder of 30_encoding, written from the opcode map of R51 and the formats of
R49. A command is one 32-bit word presented at a port: there is no byte order and no second word (R48). -/

namespace Sys2Proof

/-- A row of the opcode map: the word `w` selects it exactly when `w & mask = match` (30_encoding R51). -/
structure OpRow where
  mnemonic : String
  mask : U32
  pattern : U32
deriving DecidableEq, Repr

/-- Does the word select the row? (R51) -/
def OpRow.selects (r : OpRow) (w : U32) : Bool := decide (w &&& r.mask = r.pattern)

def rowClear : OpRow := ⟨"CLEAR", 0xFFFFFFFF#32, 0x10000000#32⟩
def rowFill : OpRow := ⟨"FILL", 0xF7FFFFFF#32, 0x20000000#32⟩
def rowSetpx : OpRow := ⟨"SETPX", 0xF7000000#32, 0x30000000#32⟩
def rowFlash : OpRow := ⟨"FLASH", 0xF7FF0000#32, 0x40000000#32⟩
def rowRender : OpRow := ⟨"RENDER", 0xF7FF0000#32, 0x50000000#32⟩

/-- The opcode map of R51, in its order. -/
def opcodeMap : List OpRow := [rowClear, rowFill, rowSetpx, rowFlash, rowRender]

/-- `OP`, bits 31:28 (R50). -/
def fieldOp (w : U32) : BitVec 4 := w.extractLsb' 28 4

/-- `V` or `A`, bit 27 (R50). -/
def fieldFlag (w : U32) : Bool := w.getLsbD 27

/-- `Y`, bits 23:12 (R50). -/
def fieldY (w : U32) : BitVec 12 := w.extractLsb' 12 12

/-- `X`, bits 11:0 (R50). -/
def fieldX (w : U32) : BitVec 12 := w.extractLsb' 0 12

/-- `N`, bits 15:0 (R50). -/
def fieldN (w : U32) : U16 := w.extractLsb' 0 16

/-- Why a word is illegal (30_encoding R53). -/
inductive IllegalWord where
  /-- `OP` in `0x0, 0x6 .. 0xF` -/
  | opcode
  /-- a legal `OP` with a nonzero bit where its format has a fixed zero -/
  | reservedBits
deriving DecidableEq, Repr

/-- What the decoder answers (30_encoding R55). -/
inductive Decoded where
  | instr (i : Instr)
  | illegal (why : IllegalWord)
deriving DecidableEq, Repr

/-- The name of an illegal word's fault of form (R53). -/
def illegalReason (w : U32) : IllegalWord :=
  if 1 ≤ (fieldOp w).toNat ∧ (fieldOp w).toNat ≤ 5 then .reservedBits else .opcode

/-- The decoder, total on 32-bit words (30_encoding R51, R53, R55). -/
def decode (w : U32) : Decoded :=
  if rowClear.selects w then .instr .clear
  else if rowFill.selects w then .instr (.fill (fieldFlag w))
  else if rowSetpx.selects w then .instr (.setpx (fieldFlag w) (fieldY w) (fieldX w))
  else if rowFlash.selects w then .instr (.flash (fieldFlag w) (fieldN w))
  else if rowRender.selects w then .instr (.render (fieldFlag w) (fieldN w))
  else .illegal (illegalReason w)

/-- A field's value put at its lowest bit in the word. -/
def fieldAt {w : Nat} (v : BitVec w) (lo : Nat) : U32 := v.setWidth 32 <<< lo

/-- Format Z: `OP` and 28 zeros (R49). -/
def formatZ (op : BitVec 4) : U32 := fieldAt op 28

/-- Format V: `OP`, `V`, 27 zeros (R49). -/
def formatV (op : BitVec 4) (v : Bool) : U32 := fieldAt op 28 ||| fieldAt (BitVec.ofBool v) 27

/-- Format P: `OP`, `V`, `000`, `Y`, `X` (R49). -/
def formatP (op : BitVec 4) (v : Bool) (y x : BitVec 12) : U32 :=
  fieldAt op 28 ||| fieldAt (BitVec.ofBool v) 27 ||| fieldAt y 12 ||| fieldAt x 0

/-- Format C: `OP`, `A`, `000`, 8 zeros, `N` (R49). -/
def formatC (op : BitVec 4) (a : Bool) (n : U16) : U32 :=
  fieldAt op 28 ||| fieldAt (BitVec.ofBool a) 27 ||| fieldAt n 0

/-- The command word of a command (30_encoding R49, R51). -/
def encode : Instr → U32
  | .clear => formatZ 0x1#4
  | .fill v => formatV 0x2#4 v
  | .setpx v y x => formatP 0x3#4 v y x
  | .flash a n => formatC 0x4#4 a n
  | .render a n => formatC 0x5#4 a n

/-- The row of the opcode map a command belongs to (R51). -/
def Instr.row : Instr → OpRow
  | .clear => rowClear
  | .fill _ => rowFill
  | .setpx _ _ _ => rowSetpx
  | .flash _ _ => rowFlash
  | .render _ _ => rowRender

/-- The command that the model's decoder reads from a word numbered as opcode_table.json numbers its bits. -/
def decodeTableWord (nbits w : Nat) : Option Instr :=
  match decode (BitVec.ofNat 32 (w % 2 ^ nbits)) with
  | .instr i => some i
  | .illegal _ => none

end Sys2Proof
end

