-- ==== Sys2Proof/Machine/State.lean ====
section
/-! DEFINITION. The state of the block (10_state R13), the parameters it carries (R27), the inputs at its ports
(R28), the reasons a step can stop, and the state after reset (70_reset R125). -/

namespace Sys2Proof.Machine

/-- `PHASE`, the frame state (10_state R18). -/
inductive Phase where
  | idle
  | frameOpen
  | rowEmitted
  | frameClosed
deriving DecidableEq, Repr

/-- `SEQ`, the thirteen micro-states (43_frame_driver R88), in the order of its table. -/
inductive Seq where
  | idle
  | cycleCheck
  | start
  | rowCheck
  | compose
  | reorder
  | stage1
  | switch
  | stage2
  | clock
  | trail
  | endFrame
  | next
deriving DecidableEq, Repr

/-- `MODE`: `fill` = 0 for FLASH, `pixel` = 1 for RENDER (10_state R13, R20). -/
inductive Mode where
  | fill
  | pixel
deriving DecidableEq, Repr

/-- The value of `FCODE` (60_exceptions R102). "Codes 5 to 15 are unused and never appear": they have no name. -/
inductive FaultCode where
  | none
  | illegalCommand
  | outOfRange
  | bufferSizeMismatch
  | protocolViolation
deriving DecidableEq, Repr

/-- A transport event, as it appears in `TRACE` (43_frame_driver R80). DESIGN CHOICE, safe (log 17): `stage` is the
call that exposes the slot and the copy into it, in one event, as R80 has it. -/
inductive Event where
  | startFrame
  /-- the row in `SCRATCH` before the transform -/
  | reorder (r : Row)
  /-- the row copied: `SCRATCH` after the transform -/
  | stage (r : Row)
  | switchBuffer
  /-- the delay -/
  | writeRow (d : U32)
  | endFrame
deriving DecidableEq, Repr

/-- `FB` as a list of (offset, byte) in one canonical form: offsets strictly rising, no byte equal to what an
unlisted offset reads as (Machine/Ops.lean says both). -/
abbrev Memory := List Host.Cell

/-- What a reset leaves in the two memories the spec leaves unspecified: `FB_INIT` (70_reset R126) and `SCRATCH`
(R127), free data that the reset input carries (log 3, log 4, log 7). -/
structure ResetImage where
  fb : List U8
  scratch : Row
deriving DecidableEq, Repr

/-- The state of the block. The first group is 10_state R13 row by row (`LUT` is a constant, R16); `cfg` holds the
parameters of R27 and no step changes it; the last group is the model's own: what the environment drives on the
ports of R28 in the coming steps. -/
structure State where
  /-- `FB` (R14) -/
  fb : Memory
  /-- `SCRATCH` (R17) -/
  scratch : Row
  /-- `PHASE` (R18) -/
  phase : Phase
  /-- `SEQ` (R19) -/
  seq : Seq
  /-- `MODE` (R20) -/
  mode : Mode
  /-- `A` (R20): the colour of FLASH (true = black) or the inverse flag of RENDER -/
  a : Bool
  /-- `CYC` (R19) -/
  cyc : BitVec 16
  /-- `ROW` (R19) -/
  row : BitVec 13
  /-- `ROWS_OUT` (R19) -/
  rowsOut : BitVec 13
  /-- `BUSY` (R21) -/
  busy : Bool
  /-- `FAULT` (R21) -/
  fault : Bool
  /-- `FCODE` (R22) -/
  fcode : FaultCode
  /-- `FINFO` (R22) -/
  finfo : U32
  /-- `CFG_ROW_DELAY` (R25) -/
  cfgRowDelay : U32
  /-- `TRACE` (R24), oldest event first -/
  trace : List Event
  /-- the configuration record (R27) -/
  cfg : Config
  /-- the words the host presents, in order: `none` is a step with `cmd_valid = 0`; a word stays at the head until
  it is accepted (R28, 30_encoding R59; log 6) -/
  cmdIn : List (Option U32)
  /-- the level of `rst` in each coming step, asserted with the contents the memories have after it; an exhausted
  list is "not asserted" (70_reset R124; log 7) -/
  rstIn : List (Option ResetImage)
  /-- `rst` was asserted in the step before (70_reset R124; log 7) -/
  inReset : Bool
  /-- `t_ack` at each coming step in which the block makes a call (R28, 60_exceptions R110; log 8) -/
  ackIn : List Bool
  /-- `t_ack` at every such step after those of `ackIn` (log 8) -/
  ackRest : Bool
deriving DecidableEq, Repr

/-- Why the machine stops with a fault. The block's own four faults are NOT here: taking one is a next state
(60_exceptions R106). -/
inductive Fault where
  /-- `MemRead` or `MemWrite` at an offset at or beyond `FB_BYTES`, where 00_scope section 6 defines neither. Raised
  by SETPX and by COMPOSE_PIXEL_ROW; unreachable (R12, R75). Safe: the model stops (log 11). -/
  | fbAddress
deriving DecidableEq, Repr

/-- Why the model gives a step no meaning. -/
inductive Refusal where
  /-- A command that has no meaning yet; raised by Dispatch only. Safe. No arm of this model answers it. -/
  | notModelled (mnemonic : String)
  /-- The configuration is not admitted by 00_scope R7: "A model refuses any other configuration: it gives it no
  meaning". Raised by every step and every command. Safe (log 10). -/
  | malformedConfiguration
deriving DecidableEq, Repr

/-- What a meaning answers. -/
abbrev Out := Host.Outcome State Fault Refusal

/-- The machine right after reset, on the representative configuration: every value is 70_reset R125's but those
the spec leaves open. `fb`: DESIGN CHOICE, unsafe (log 3). `scratch`: DESIGN CHOICE, unsafe (log 4). `cfg`: DESIGN
CHOICE, unsafe (log 2). The inputs: nothing presented, `rst` released and not asserted again, every transport call
completes: DESIGN CHOICE, unsafe (log 6, 7, 8). -/
def State.reset : State where
  fb := []
  scratch := List.replicate 120 0x0000#16
  phase := .idle
  seq := .idle
  mode := .fill
  a := false
  cyc := 0#16
  row := 0#13
  rowsOut := 0#13
  busy := false
  fault := false
  fcode := .none
  finfo := 0x00000000#32
  cfgRowDelay := 120#32
  trace := []
  cfg := Config.representative
  cmdIn := []
  rstIn := []
  inReset := false
  ackIn := []
  ackRest := true

end Sys2Proof.Machine
end

