-- ==== Sys2Proof/Machine/Operands.lean ====
section
/-! DEFINITION. Operand forms: how a pixel, a row slice and a table entry are addressed, how a byte expands to a
drive pattern, how a row is seen as bytes (00_scope R12; 20_memory R34 to R39; 40_pixel_buffer R63;
41_expand_table R69 to R71; 42_row_compositor R76). -/

namespace Sys2Proof.Machine

/-- `index = Y*W + X` (40_pixel_buffer R63, 20_memory R39). -/
def pixelIndex (c : Config) (y x : Nat) : Nat := y * c.width + x

/-- `a = index / 8` (R63). -/
def pixelByte (c : Config) (y x : Nat) : Nat := pixelIndex c y x / 8

/-- `k`: `index mod 8`, or `7 - (index mod 8)` under `msb0` (R63, 20_memory R34). -/
def pixelBit (c : Config) (y x : Nat) : Nat :=
  match c.fbBitOrder with
  | .lsb0 => pixelIndex c y x % 8
  | .msb0 => 7 - pixelIndex c y x % 8

/-- `(old & ~(1 << k)) | (V << k)` on 8 bits (R63). -/
def withBit (old : U8) (k : Nat) (v : Bool) : U8 :=
  (old &&& ~~~(1#8 <<< k)) ||| ((BitVec.ofBool v).setWidth 8 <<< k)

/-- First byte of row `y`: `y*FB_ROW_BYTES` (20_memory R39). -/
def rowBase (c : Config) (y : Nat) : Nat := y * c.fbRowBytes

/-- The drive symbol of a pixel: `0b10` for white (0), `0b01` for black (1) (10_state R15, 41_expand_table R70). -/
def symbol (black : Bool) : BitVec 2 := if black then 0b01#2 else 0b10#2

/-- EXPAND: input bit `i` gives output bits `2i+1:2i`, most significant first (41_expand_table R70). -/
def expand (b : U8) : U16 :=
  symbol (b.getLsbD 7) ++ symbol (b.getLsbD 6) ++ symbol (b.getLsbD 5) ++ symbol (b.getLsbD 4) ++
    symbol (b.getLsbD 3) ++ symbol (b.getLsbD 2) ++ symbol (b.getLsbD 1) ++ symbol (b.getLsbD 0)

/-- `LUT[i]`: "A model may define `LUT` as the function EXPAND" (41_expand_table R69, 10_state R16). -/
def lut (i : U8) : U16 := expand i

/-- INV_EXPAND: the same table at the index `255 - b` (41_expand_table R71). -/
def invExpand (b : U8) : U16 := lut (255#8 - b)

/-- The table index of a buffer byte: `255 - b` when `inverse` is set (42_row_compositor R75). -/
def lutIndex (inv : Bool) (b : U8) : U8 := if inv then 255#8 - b else b

/-- `SPREAD(b)`: bit `2i` is bit `i` of `b`, odd bits 0 (41_expand_table R72). -/
def spread (b : U8) : U16 :=
  0#1 ++ BitVec.ofBool (b.getLsbD 7) ++ 0#1 ++ BitVec.ofBool (b.getLsbD 6) ++ 0#1 ++ BitVec.ofBool (b.getLsbD 5) ++
    0#1 ++ BitVec.ofBool (b.getLsbD 4) ++ 0#1 ++ BitVec.ofBool (b.getLsbD 3) ++ 0#1 ++ BitVec.ofBool (b.getLsbD 2) ++
    0#1 ++ BitVec.ofBool (b.getLsbD 1) ++ 0#1 ++ BitVec.ofBool (b.getLsbD 0)

/-- The wire byte of a fill row: `0x55` for black, `0xAA` for white (42_row_compositor R76). -/
def fillByte (black : Bool) : U8 := if black then 0x55#8 else 0xAA#8

/-- The byte of eight pixels of one state in `FB`: `0xFF` black, `0x00` white (10_state R15, 40_pixel_buffer R64). -/
def solidByte (black : Bool) : U8 := if black then 0xFF#8 else 0x00#8

/-- The two bytes of a row word, lower byte index first (20_memory R36). -/
def wordBytes (o : ByteOrder) (w : U16) : List U8 :=
  match o with
  | .little => [w.extractLsb' 0 8, w.extractLsb' 8 8]
  | .big => [w.extractLsb' 8 8, w.extractLsb' 0 8]

/-- The row word of two bytes, lower byte index first (20_memory R36). -/
def bytesWord (o : ByteOrder) (first second : U8) : U16 :=
  match o with
  | .little => second ++ first
  | .big => first ++ second

/-- SCRATCHB: a row viewed as bytes (20_memory R36). -/
def rowToBytes (o : ByteOrder) (r : Row) : List U8 := r.flatMap (wordBytes o)

end Sys2Proof.Machine
end

