-- ==== Sys2Proof/Machine/Ops.lean ====
section
/-! DEFINITION. The named operations over memory, fault latch, ports and transport that every meaning and every
micro-step is written with. -/

namespace Sys2Proof.Machine

/-! ### `FB` as data -/

/-- What a byte of `FB` that is not listed reads as. DESIGN CHOICE, unsafe (log 3): 70_reset R126 leaves the
contents after reset open. -/
def Memory.unlisted : U8 := 0x00#8

/-- The byte at an offset. -/
def Memory.read : Memory → Nat → U8
  | [], _ => Memory.unlisted
  | (k, v) :: m, a => if k = a then v else Memory.read m a

/-- A byte `b` put before `m` at offset `a`, listed only if it must be. -/
def Memory.cell (a : Nat) (b : U8) (m : Memory) : Memory := if b = Memory.unlisted then m else (a, b) :: m

/-- Store one byte, keeping the canonical form. -/
def Memory.write : Memory → Nat → U8 → Memory
  | [], a, b => Memory.cell a b []
  | (k, v) :: m, a, b =>
    if a < k then Memory.cell a b ((k, v) :: m)
    else if a = k then Memory.cell a b m
    else (k, v) :: Memory.write m a b

/-- `for a in 0 .. n-1: MemWrite(a, 1, b)`, ascending (40_pixel_buffer R62, R64; 20_memory R37). -/
def Memory.fill (m : Memory) (b : U8) : Nat → Memory
  | 0 => m
  | n + 1 => (Memory.fill m b n).write n b

/-- The memory whose first `n` bytes are `bytes`, short lists read on as the unlisted byte. -/
def Memory.load (bytes : List U8) : Nat → Memory
  | 0 => []
  | n + 1 => (Memory.load bytes n).write n (bytes.getD n Memory.unlisted)

/-- Offsets strictly rising from `lo` on, and no byte that an unlisted offset reads as. -/
def Memory.wfFrom : Nat → Memory → Bool
  | _, [] => true
  | lo, (k, v) :: m => decide (lo ≤ k) && decide (v ≠ Memory.unlisted) && Memory.wfFrom (k + 1) m

/-- The canonical form. -/
def Memory.wf (m : Memory) : Bool := Memory.wfFrom 0 m

/-- Every listed offset is below `n`. -/
def Memory.below (n : Nat) (m : Memory) : Bool := m.all fun cell => decide (cell.1 < n)

/-! ### `FB` of a state: `MemRead(a, 1)` and `MemWrite(a, 1, v)` (00_scope section 6) -/

/-- "Both are defined only for `0 <= addr < FB_BYTES`" (00_scope section 6). -/
def State.fbRead (s : State) (a : Nat) : Except Fault U8 :=
  if a < s.cfg.fbBytes then .ok (s.fb.read a) else .error .fbAddress

def State.fbWrite (s : State) (a : Nat) (b : U8) : Except Fault State :=
  if a < s.cfg.fbBytes then .ok { s with fb := s.fb.write a b } else .error .fbAddress

/-- `n` bytes from offset `base` on, ascending (20_memory R37). -/
def State.fbSlice (s : State) (base n : Nat) : Except Fault (List U8) :=
  if base + n ≤ s.cfg.fbBytes then .ok ((List.range n).map fun j => s.fb.read (base + j)) else .error .fbAddress

/-- Every byte of `FB` written with `b`. -/
def State.fbFill (b : U8) (s : State) : State := { s with fb := s.fb.fill b s.cfg.fbBytes }

/-- GETPX, a function of the spec (40_pixel_buffer R65): `true` is black. -/
def getpx (s : State) (x y : Nat) : Bool := (s.fb.read (pixelByte s.cfg y x)).getLsbD (pixelBit s.cfg y x)

/-! ### Taking a fault (60_exceptions R106) -/

/-- `raise F(info)`: "`FAULT <- 1`; `FCODE <- code of F`; `FINFO <- info`; the command in hand ends;
`SEQ <- S_IDLE`; `BUSY <- 0`. Nothing else changes". There is no return from it (R109). -/
def State.raise (f : FaultCode) (info : U32) (s : State) : State :=
  { s with fault := true, fcode := f, finfo := info, seq := .idle, busy := false }

/-- The configuration is admitted, or the model gives no meaning (00_scope R7; log 10). -/
def State.admitted (s : State) (k : State → Out) : Out :=
  if s.cfg.wf then k s else .refused .malformedConfiguration

/-- The check of every command that uses `FB`, before any access and any transport call (60_exceptions R104). -/
def State.needsFb (s : State) (word : U32) (k : State → Out) : Out :=
  if s.cfg.fbAttached then k s else .next (s.raise .bufferSizeMismatch word)

/-! ### The transport port (10_state R28; 43_frame_driver R80; 60_exceptions R110) -/

/-- `t_ack` in this step. -/
def State.ackNow (s : State) : Bool :=
  match s.ackIn with
  | [] => s.ackRest
  | b :: _ => b

/-- The step has looked at `t_ack`. -/
def State.ackTaken (s : State) : State := { s with ackIn := s.ackIn.tail }

/-- Append an event to `TRACE`. -/
def State.emit (e : Event) (s : State) : State := { s with trace := s.trace ++ [e] }

/-- `emit E` in one step, then the step's writes: "makes the call, waits for it to return, and appends `E`" (R80).
While the transport does not complete the call "the block waits in that `SEQ` value" (R88, R110). -/
def State.call (e : Event) (writes : State → State) (s : State) : Out :=
  if s.ackNow then .next (writes (s.ackTaken.emit e)) else .next s.ackTaken

/-! ### The command port and the reset input (10_state R28; 30_encoding R59; 70_reset R124) -/

/-- `cmd_word` when `cmd_valid = 1` in this step. -/
def State.cmdNow (s : State) : Option U32 :=
  match s.cmdIn with
  | some w :: _ => some w
  | _ => none

/-- The host's inputs after a step that accepts nothing: a step of `cmd_valid = 0` has passed, a word is held. -/
def heldCommands : List (Option U32) → List (Option U32)
  | none :: rest => rest
  | cmds => cmds

/-- `rst` in this step, with what it leaves in the memories. -/
def State.rstNow (s : State) : Option ResetImage :=
  match s.rstIn with
  | some img :: _ => some img
  | _ => none

/-- A step has passed at the command port and the reset input, and accepted nothing. -/
def State.tick (s : State) : State := { s with cmdIn := heldCommands s.cmdIn, rstIn := s.rstIn.tail }

/-- The word at the command port has been accepted (30_encoding R59). -/
def State.popCommand (s : State) : State := { s with cmdIn := s.cmdIn.tail }

/-- The block right after reset on a configuration, `FB` and `SCRATCH` holding what `img` says: the values of
70_reset R125, for every `FB_INIT`. The inputs are those of `State.reset` (log 6, 7, 8). -/
def State.powerOn (c : Config) (img : ResetImage) : State where
  fb := Memory.load img.fb c.fbBytes
  scratch := (List.range c.rowWords).map fun j => img.scratch.getD j 0x0000#16
  phase := .idle
  seq := .idle
  mode := .fill
  a := false
  cyc := 0#16
  row := 0#13
  rowsOut := 0#13
  busy := false
  fault := false
  fcode := .none
  finfo := 0x00000000#32
  cfgRowDelay := c.rowDelay
  trace := []
  cfg := c
  cmdIn := []
  rstIn := []
  inReset := false
  ackIn := []
  ackRest := true

/-- A step in which `rst` is asserted (70_reset R124, R125): the block's state is the reset state, the environment's
inputs go on, the transport is not told. -/
def State.resetBy (img : ResetImage) (s : State) : State :=
  { State.powerOn s.cfg img with
    cmdIn := s.cmdIn
    rstIn := s.rstIn
    inReset := true
    ackIn := s.ackIn
    ackRest := s.ackRest }

/-- The step in which `rst` is released: nothing is accepted yet (70_reset R124; log 7). -/
def State.released (s : State) : State := { s with inReset := false }

end Sys2Proof.Machine
end

