-- ==== Sys2Proof/Machine/CycleController.lean ====
section
/-! DEFINITION. The cycle controller's commands FLASH and RENDER (44_cycle_controller): what the step that accepts
them writes. The `while CYC != 0` loop of R96 and R97 is the sequencer of FrameDriver.lean (43_frame_driver R88), one
micro-step a step (log 9). -/

namespace Sys2Proof.Machine

/-- "on acceptance of FLASH or RENDER: `MODE`, `A`, `CYC <- N`, `BUSY <- 1`", next `SEQ` `S_CYCLE_CHECK` (R88). -/
def State.latch (m : Mode) (a : Bool) (n : U16) (s : State) : State :=
  { s with mode := m, a := a, cyc := n, busy := true, seq := .cycleCheck }

/-- FLASH (44_cycle_controller R96); it makes no `FB_LEN` check. -/
def execFlash (a : Bool) (n : U16) (s : State) : Out := s.admitted fun s => .next (s.latch .fill a n)

/-- RENDER (44_cycle_controller R97); the check is made even with `N = 0` (R98). -/
def execRender (a : Bool) (n : U16) (s : State) : Out :=
  s.admitted fun s => s.needsFb (encode (.render a n)) fun s => .next (s.latch .pixel a n)

end Sys2Proof.Machine
end

