-- ==== Sys2Proof/Machine/PixelBuffer.lean ====
section
/-! DEFINITION. The pixel buffer commands CLEAR, FILL and SETPX (40_pixel_buffer): each completes in the step that
accepts it and touches nothing but `FB`, or the fault latch (R67). The word a fault records is the command's own
(60_exceptions R102): the accepted word is `encode` of the decoded command (30_encoding R55; log 13). -/

namespace Sys2Proof.Machine

/-- CLEAR (40_pixel_buffer R62). -/
def execClear (s : State) : Out :=
  s.admitted fun s => s.needsFb (encode .clear) fun s => .next (s.fbFill (solidByte false))

/-- FILL (40_pixel_buffer R64). -/
def execFill (v : Bool) (s : State) : Out :=
  s.admitted fun s => s.needsFb (encode (.fill v)) fun s => .next (s.fbFill (solidByte v))

/-- `MemRead(a, 1)`, then `MemWrite(a, 1, new)` at the same offset (40_pixel_buffer R63, 20_memory R37). -/
def State.setPixel (s : State) (v : Bool) (y x : Nat) : Out :=
  match s.fbRead (pixelByte s.cfg y x) with
  | .error f => .fault f
  | .ok old =>
    match s.fbWrite (pixelByte s.cfg y x) (withBit old (pixelBit s.cfg y x) v) with
    | .error f => .fault f
    | .ok t => .next t

/-- The closed form of SETPX's effect: bit `k` of byte `a` is the value (R63). -/
def State.withPixel (s : State) (v : Bool) (y x : Nat) : State :=
  let a := pixelByte s.cfg y x
  { s with fb := s.fb.write a (withBit (s.fb.read a) (pixelBit s.cfg y x) v) }

/-- SETPX (40_pixel_buffer R63; 60_exceptions R103, R108). -/
def execSetpx (v : Bool) (y x : BitVec 12) (s : State) : Out :=
  s.admitted fun s => s.needsFb (encode (.setpx v y x)) fun s =>
    if x.toNat < s.cfg.width ∧ y.toNat < s.cfg.height then s.setPixel v y.toNat x.toNat
    else .next (s.raise .outOfRange (encode (.setpx v y x)))

end Sys2Proof.Machine
end

