-- ==== Sys2Proof/Machine/Dispatch.lean ====
section
/-! DEFINITION. One arm per command: its meaning. -/

namespace Sys2Proof.Machine

/-- What an accepted command does in the step that accepts it (30_encoding R51). -/
def exec (i : Instr) (s : State) : Host.Outcome State Fault Refusal :=
  match i with
  | .clear => Sys2Proof.Machine.execClear s
  | .fill v => Sys2Proof.Machine.execFill v s
  | .setpx v y x => Sys2Proof.Machine.execSetpx v y x s
  | .flash a n => Sys2Proof.Machine.execFlash a n s
  | .render a n => Sys2Proof.Machine.execRender a n s

end Sys2Proof.Machine
end

