-- ==== Sys2Proof/Machine/Flags.lean ====
section
/-! DEFINITION. The flags and the outputs computed from the state: `STATUS`, `cmd_ready`, the transport port
(10_state R18, R21 to R23, R28). There are no arithmetic condition codes (R21). -/

namespace Sys2Proof.Machine

/-- The 2-bit code of `PHASE` (10_state R18). -/
def Phase.bits : Phase → BitVec 2
  | .idle => 0#2
  | .frameOpen => 1#2
  | .rowEmitted => 2#2
  | .frameClosed => 3#2

/-- The 4-bit code of `FCODE` (60_exceptions R102). -/
def FaultCode.bits : FaultCode → BitVec 4
  | .none => 0#4
  | .illegalCommand => 1#4
  | .outOfRange => 2#4
  | .bufferSizeMismatch => 3#4
  | .protocolViolation => 4#4

/-- The 1-bit code of `MODE` (10_state R13). -/
def Mode.bit : Mode → BitVec 1
  | .fill => 0#1
  | .pixel => 1#1

/-- `STATUS`: bit 0 `BUSY`, bit 1 `FAULT`, bits 5:2 `FCODE`, bits 7:6 `PHASE`, bits 31:8 zero (10_state R23). -/
def State.statusWord (s : State) : U32 :=
  0#24 ++ s.phase.bits ++ s.fcode.bits ++ BitVec.ofBool s.fault ++ BitVec.ofBool s.busy

/-- `cmd_ready = (BUSY = 0) and (FAULT = 0)` (10_state R28). -/
def State.cmdReady (s : State) : Bool := !s.busy && !s.fault

/-- `cmd_valid` (10_state R28). -/
def State.cmdValid (s : State) : Bool := s.cmdNow.isSome

/-- The call the block makes in its present micro-state, `t_op` and `t_arg` of 10_state R28, as the event it becomes
(43_frame_driver R88, column "emits"). -/
def State.pendingCall (s : State) : Option Event :=
  match s.seq with
  | .idle => none
  | .cycleCheck => none
  | .start => some .startFrame
  | .rowCheck => none
  | .compose => none
  | .reorder => some (.reorder s.scratch)
  | .stage1 => some (.stage s.scratch)
  | .switch => some .switchBuffer
  | .stage2 => some (.stage s.scratch)
  | .clock => some (.writeRow s.cfgRowDelay)
  | .trail => some (.writeRow s.cfgRowDelay)
  | .endFrame => some .endFrame
  | .next => none

/-- `t_req` (10_state R28). -/
def State.tReq (s : State) : Bool := s.pendingCall.isSome

/-- The calls of the transport (60_exceptions R114); the four lifecycle calls are not made by the block (R120).
The type `Nat` of `init`'s selector is the model's choice, DESIGN CHOICE, safe (log 24): R114 calls it "a selector, not
described". -/
inductive TransportCall where
  | startFrame
  | endFrame
  | switchBuffer
  | getCurrentBuffer
  | writeRow (delay : U32)
  | reorderLineBuffer (rowWords : Row)
  /-- its argument's type is the model's choice (log 24) -/
  | init (lutSelector : Nat)
  | powerOn
  | powerOff
  | deinit
deriving DecidableEq, Repr

/-- The call an event stands for (43_frame_driver R80). -/
def Event.transportCall : Event → TransportCall
  | .startFrame => .startFrame
  | .reorder r => .reorderLineBuffer r
  | .stage _ => .getCurrentBuffer
  | .switchBuffer => .switchBuffer
  | .writeRow d => .writeRow d
  | .endFrame => .endFrame

/-- The bytes an event copies into the exposed slot, from its first byte on (60_exceptions R116). -/
def Event.slotBytes (o : ByteOrder) : Event → List U8
  | .stage r => rowToBytes o r
  | .startFrame => []
  | .reorder _ => []
  | .switchBuffer => []
  | .writeRow _ => []
  | .endFrame => []

end Sys2Proof.Machine
end

