-- ==== Sys2Proof/Machine/Compositor.lean ====
section
/-! DEFINITION. The row compositor (42_row_compositor): COMPOSE_FILL_ROW, COMPOSE_PIXEL_ROW and REORDER. -/

namespace Sys2Proof.Machine

/-- REORDER applied to a row (R78), in every instance a function of the row alone that keeps its length. -/
def reorderRow (c : Config) (r : Row) : Row :=
  match c.reorder with
  | .uninterpreted => (List.range r.length).map (Config.reorderWord r)
  | .identity => r
  | .bytePermutation p =>
    (List.range r.length).map fun j =>
      bytesWord c.rowWordOrder
        ((rowToBytes c.rowWordOrder r).getD (p.getD (2 * j) 0) 0x00#8)
        ((rowToBytes c.rowWordOrder r).getD (p.getD (2 * j + 1) 0) 0x00#8)

/-- COMPOSE_FILL_ROW (R76): every byte of the row is the wire byte of the colour. -/
def composeFillRow (c : Config) (black : Bool) : Row :=
  List.replicate c.rowWords (bytesWord c.rowWordOrder (fillByte black) (fillByte black))

/-- COMPOSE_PIXEL_ROW (R75): word `j` is the table entry of byte `j` of the row's slice of `FB`. -/
def State.composePixelRow (s : State) (y : Nat) (inv : Bool) : Except Fault Row :=
  match s.fbSlice (rowBase s.cfg y) s.cfg.fbRowBytes with
  | .error f => .error f
  | .ok bytes => .ok (bytes.map fun b => lut (lutIndex inv b))

/-- The row the sequencer composes in `S_COMPOSE` (43_frame_driver R88). -/
def State.composedRow (s : State) : Except Fault Row :=
  match s.mode with
  | .fill => .ok (composeFillRow s.cfg s.a)
  | .pixel => s.composePixelRow s.row.toNat s.a

end Sys2Proof.Machine
end

