-- ==== Sys2Proof/Machine/FrameDriver.lean ====
section
/-! DEFINITION. The micro-sequencer: one definition per row of the table of 43_frame_driver R88, over the writes and
the validity conditions of R81 to R85. DESIGN CHOICE, safe (log 9): one step of the model is one row of that table. -/

namespace Sys2Proof.Machine

/-! ### Validity (R81) and writes (R82 to R85) -/

/-- START_FRAME is valid in `Idle` (R82). -/
def State.startValid (s : State) : Bool := decide (s.phase = .idle)

/-- EMIT_ROW is valid while a frame is open (R83). -/
def State.emitValid (s : State) : Bool := decide (s.phase = .frameOpen ∨ s.phase = .rowEmitted)

/-- END_FRAME is valid after at least `H + 1` clock-outs (R85). -/
def State.endValid (s : State) : Bool :=
  decide (s.phase = .rowEmitted) && decide (s.cfg.height + 1 ≤ s.rowsOut.toNat)

/-- `PHASE <- FrameOpen ; ROW <- 0 ; ROWS_OUT <- 0` (R82). -/
def State.frameOpened (s : State) : State := { s with phase := .frameOpen, row := 0#13, rowsOut := 0#13 }

/-- `ROWS_OUT <- ROWS_OUT + 1 ; PHASE <- RowEmitted` (R83, R84). -/
def State.clockedOut (s : State) : State := { s with rowsOut := s.rowsOut + 1#13, phase := .rowEmitted }

/-- `ROW <- ROW + 1` (R88, `S_CLOCK`). -/
def State.rowAdvanced (s : State) : State := { s with row := s.row + 1#13 }

/-- `PHASE <- FrameClosed` (R85). -/
def State.frameClosed (s : State) : State := { s with phase := .frameClosed }

/-- `PHASE <- Idle` (R81, frame done). -/
def State.frameDone (s : State) : State := { s with phase := .idle }

/-- ProtocolViolation: "no command word is at hand", `FINFO = 0` (60_exceptions R107). -/
def State.protocolViolation (s : State) : State := s.raise .protocolViolation 0x00000000#32

/-- `SEQ <- q`. -/
def State.goto (q : Seq) (s : State) : State := { s with seq := q }

/-! ### The thirteen rows (R88) -/

/-- `S_CYCLE_CHECK`. -/
def seqCycleCheck (s : State) : Out :=
  if s.cyc = 0#16 then .next (({ s with busy := false } : State).goto .idle) else .next (s.goto .start)

/-- `S_START`: START_FRAME (R82). -/
def seqStart (s : State) : Out :=
  if s.startValid then s.call .startFrame (fun t => t.frameOpened.goto .rowCheck) else .next s.protocolViolation

/-- `S_ROW_CHECK`. -/
def seqRowCheck (s : State) : Out :=
  if s.row.toNat < s.cfg.height then .next (s.goto .compose) else .next (s.goto .trail)

/-- `S_COMPOSE`: COMPOSE_FILL_ROW or COMPOSE_PIXEL_ROW. -/
def seqCompose (s : State) : Out :=
  match s.composedRow with
  | .error f => .fault f
  | .ok r => .next (({ s with scratch := r } : State).goto .reorder)

/-- `S_REORDER`: the event holds the row before the transform (42_row_compositor R78). -/
def seqReorder (s : State) : Out :=
  s.call (.reorder s.scratch) fun t => ({ t with scratch := reorderRow t.cfg t.scratch } : State).goto .stage1

/-- `S_STAGE1`: EMIT_ROW begins here, and its validity is checked here (R83). -/
def seqStage1 (s : State) : Out :=
  if s.emitValid then
    s.call (.stage s.scratch) fun t => t.goto (match t.mode with | .pixel => .switch | .fill => .clock)
  else .next s.protocolViolation

/-- `S_SWITCH`. -/
def seqSwitch (s : State) : Out := s.call .switchBuffer fun t => t.goto .stage2

/-- `S_STAGE2`. -/
def seqStage2 (s : State) : Out := s.call (.stage s.scratch) fun t => t.goto .clock

/-- `S_CLOCK`. -/
def seqClock (s : State) : Out :=
  s.call (.writeRow s.cfgRowDelay) fun t => t.clockedOut.rowAdvanced.goto .rowCheck

/-- `S_TRAIL`: the trailing row (R84); it makes no validity check (log 12). -/
def seqTrail (s : State) : Out := s.call (.writeRow s.cfgRowDelay) fun t => t.clockedOut.goto .endFrame

/-- `S_END`: END_FRAME (R85). -/
def seqEnd (s : State) : Out :=
  if s.endValid then s.call .endFrame (fun t => t.frameClosed.goto .next) else .next s.protocolViolation

/-- `S_NEXT`. -/
def seqNext (s : State) : Out := .next (({ s with cyc := s.cyc - 1#16 } : State).frameDone.goto .cycleCheck)

/-- One step of the sequencer outside `S_IDLE`; in `S_IDLE` no command was accepted and it stays there. -/
def sequencerStep (s : State) : Out :=
  match s.seq with
  | .idle => .next s
  | .cycleCheck => seqCycleCheck s
  | .start => seqStart s
  | .rowCheck => seqRowCheck s
  | .compose => seqCompose s
  | .reorder => seqReorder s
  | .stage1 => seqStage1 s
  | .switch => seqSwitch s
  | .stage2 => seqStage2 s
  | .clock => seqClock s
  | .trail => seqTrail s
  | .endFrame => seqEnd s
  | .next => seqNext s

end Sys2Proof.Machine
end

