-- ==== Sys2Proof/Machine/Accept.lean ====
section
/-! DEFINITION. Acceptance of a word at the command port (30_encoding R59) and a step in `S_IDLE`. -/

namespace Sys2Proof.Machine

/-- The accepted word's command, or IllegalCommand (30_encoding R53, 60_exceptions R105, R108). -/
def acceptWord (w : U32) (s : State) : Out :=
  match decode w with
  | .instr i => exec i s
  | .illegal _ => .next (s.raise .illegalCommand w)

/-- A step in `S_IDLE`: a word is accepted when `cmd_valid` and `cmd_ready`, else it is held (30_encoding R59). -/
def idleStep (s : State) : Out :=
  match s.cmdNow with
  | some w => if s.cmdReady then acceptWord w s.tick.popCommand else .next s.tick
  | none => .next s.tick

/-- A step without `rst`. -/
def runStep (s : State) : Out :=
  match s.seq with
  | .idle => idleStep s
  | _ => sequencerStep s.tick

/-- A step of the block: refused on a configuration that is not admitted (00_scope R7), the reset state while `rst`
is asserted and in the step it is released (70_reset R124), else a step of the sequencer. -/
def blockStep (s : State) : Out :=
  s.admitted fun s =>
    match s.rstNow with
    | some img => .next (s.tick.resetBy img)
    | none => if s.inReset then .next s.tick.released else runStep s

/-- The word `w` at the command port of a block that accepts it in the very next step (log 16). -/
def State.presenting (w : U32) (s : State) : State :=
  { s with
    cmdIn := some w :: s.cmdIn
    rstIn := none :: s.rstIn
    inReset := false
    seq := .idle
    busy := false
    fault := false
    fcode := .none
    finfo := 0x00000000#32 }

end Sys2Proof.Machine
end

