-- ==== Sys2Proof/Machine/Step.lean ====
section
/-! DEFINITION. The step function of the machine, and a state whose next step runs a given word. -/

namespace Sys2Proof.Machine

/-- One step (43_frame_driver R88, 30_encoding R59, 70_reset R124). -/
def step (s : State) : Host.Outcome State Fault Refusal := blockStep s

/-- `s` with the word presented where the block takes its next command: the command port (30_encoding R59; log 16). -/
def State.withFetchWord (s : State) (nbits w : Nat) : State := s.presenting (BitVec.ofNat 32 (w % 2 ^ nbits))

end Sys2Proof.Machine
end

