-- ==== Sys2Proof/Machine/Assembler.lean ====
section
/-! DEFINITION. The assembler of 30_encoding R56 and R57: one line of text to a line of assembly, and that to a
command. The block does not read assembly; this is the spec's notation for command words. -/

namespace Sys2Proof.Machine

/-- The Boolean a spelling stands for: `true`, `black` and 1 are 1 (30_encoding R56, 10_state R15). -/
def asmValue : AsmBool → Bool
  | .num n => decide (n = 1)
  | .isFalse => false
  | .isTrue => true
  | .white => false
  | .black => true

/-- A pseudo-instruction's expansion with `DEFAULT_CYCLES` = `d` (30_encoding R57); other lines as they stand. -/
def expandPseudo (d : Nat) : AsmLine → AsmLine
  | .clear => .clear
  | .fill v => .fill v
  | .setpx x y v => .setpx x y v
  | .flash c n => .flash c n
  | .render n i => .render n i
  | .flashDefault c => .flash c d
  | .renderDefault => .render d (.num 0)
  | .renderNormal n => .render n (.num 0)
  | .whitewash => .flash .white d

/-- The command of a line without pseudo-instructions. -/
def coreCommand : AsmLine → Option Instr
  | .clear => some .clear
  | .fill v => some (.fill (asmValue v))
  | .setpx x y v => some (.setpx (asmValue v) (BitVec.ofNat 12 y) (BitVec.ofNat 12 x))
  | .flash c n => some (.flash (asmValue c) (BitVec.ofNat 16 n))
  | .render n i => some (.render (asmValue i) (BitVec.ofNat 16 n))
  | .flashDefault _ => none
  | .renderDefault => none
  | .renderNormal _ => none
  | .whitewash => none

/-- The command of a line, refused when an operand does not fit its field (30_encoding R56). -/
def assemble (d : Nat) (l : AsmLine) : Option Instr :=
  if (expandPseudo d l).wf then coreCommand (expandPseudo d l) else none

/-! ### Text (30_encoding R56: "one command per line, operands decimal or `0x` hexadecimal, separated by commas,
`;` starting a comment"; blanks, letter case and empty lines: DESIGN CHOICE, log 18) -/

/-- Blanks between words. -/
def isBlank (c : Char) : Bool := decide (c = ' ') || decide (c = '\t')

/-- The text before a comment. -/
def dropComment : List Char → List Char
  | [] => []
  | c :: cs => if c = ';' then [] else c :: dropComment cs

/-- Blanks at the front dropped. -/
def trimFront : List Char → List Char
  | [] => []
  | c :: cs => if isBlank c then trimFront cs else c :: cs

/-- Blanks at both ends dropped. -/
def trim (cs : List Char) : List Char := (trimFront (trimFront cs).reverse).reverse

/-- The first word and what follows it. -/
def firstWord : List Char → List Char × List Char
  | [] => ([], [])
  | c :: cs => if isBlank c then ([], c :: cs) else (c :: (firstWord cs).1, (firstWord cs).2)

/-- Split at commas; the pieces are not trimmed. -/
def splitCommas : List Char → List (List Char)
  | [] => [[]]
  | c :: cs =>
    if c = ',' then [] :: splitCommas cs
    else
      match splitCommas cs with
      | [] => [[c]]
      | p :: ps => (c :: p) :: ps

/-- The value of a decimal digit. -/
def decDigit (c : Char) : Option Nat :=
  if 48 ≤ c.toNat ∧ c.toNat ≤ 57 then some (c.toNat - 48) else none

/-- The value of a hexadecimal digit. -/
def hexDigit (c : Char) : Option Nat :=
  if 48 ≤ c.toNat ∧ c.toNat ≤ 57 then some (c.toNat - 48)
  else if 65 ≤ c.toNat ∧ c.toNat ≤ 70 then some (c.toNat - 55)
  else if 97 ≤ c.toNat ∧ c.toNat ≤ 102 then some (c.toNat - 87)
  else none

/-- The digits read on from the value `acc`. -/
def digits (base : Nat) (digit : Char → Option Nat) : List Char → Nat → Option Nat
  | [], acc => some acc
  | c :: cs, acc =>
    match digit c with
    | some v => digits base digit cs (acc * base + v)
    | none => none

/-- A number, decimal or `0x` hexadecimal. -/
def asmNumber : List Char → Option Nat
  | [] => none
  | ['0', 'x'] => none
  | '0' :: 'x' :: cs => digits 16 hexDigit cs 0
  | cs => digits 10 decDigit cs 0

/-- A Boolean operand's spelling. -/
def asmBool (cs : List Char) : Option AsmBool :=
  if cs = ['f', 'a', 'l', 's', 'e'] then some .isFalse
  else if cs = ['t', 'r', 'u', 'e'] then some .isTrue
  else if cs = ['w', 'h', 'i', 't', 'e'] then some .white
  else if cs = ['b', 'l', 'a', 'c', 'k'] then some .black
  else (asmNumber cs).map .num

/-- A mnemonic of R56 and R57. -/
inductive AsmOp where
  | clear
  | fill
  | setpx
  | flash
  | render
  | whitewash
deriving DecidableEq, Repr

/-- The mnemonic that a word spells. -/
def asmOp (cs : List Char) : Option AsmOp :=
  if cs = ['C', 'L', 'E', 'A', 'R'] then some .clear
  else if cs = ['F', 'I', 'L', 'L'] then some .fill
  else if cs = ['S', 'E', 'T', 'P', 'X'] then some .setpx
  else if cs = ['F', 'L', 'A', 'S', 'H'] then some .flash
  else if cs = ['R', 'E', 'N', 'D', 'E', 'R'] then some .render
  else if cs = ['W', 'H', 'I', 'T', 'E', 'W', 'A', 'S', 'H'] then some .whitewash
  else none

/-- The operands of a line: none, or the trimmed pieces between commas. -/
def asmOperands (cs : List Char) : List (List Char) :=
  if trim cs = [] then [] else (splitCommas cs).map trim

/-- A mnemonic with its operands (R56, R57). -/
def asmForm : AsmOp → List (List Char) → Option AsmLine
  | .clear, [] => some .clear
  | .fill, [v] => (asmBool v).map .fill
  | .setpx, [x, y, v] =>
    match asmNumber x, asmNumber y, asmBool v with
    | some x, some y, some v => some (.setpx x y v)
    | _, _, _ => none
  | .flash, [c] => (asmBool c).map .flashDefault
  | .flash, [c, n] =>
    match asmBool c, asmNumber n with
    | some c, some n => some (.flash c n)
    | _, _ => none
  | .render, [] => some .renderDefault
  | .render, [n] => (asmNumber n).map .renderNormal
  | .render, [n, i] =>
    match asmNumber n, asmBool i with
    | some n, some i => some (.render n i)
    | _, _ => none
  | .whitewash, [] => some .whitewash
  | _, _ => none

/-- What a line of text is. -/
inductive AsmText where
  /-- nothing but blanks and a comment -/
  | empty
  | line (l : AsmLine)
  | refused
deriving DecidableEq, Repr

/-- Read a line of text (R56). -/
def parseLine (text : List Char) : AsmText :=
  if trim (dropComment text) = [] then .empty
  else
    match asmOp (firstWord (trim (dropComment text))).1 with
    | none => .refused
    | some op =>
      match asmForm op (asmOperands (firstWord (trim (dropComment text))).2) with
      | some l => .line l
      | none => .refused

/-- The command word of a line of text, where it holds a command that the assembler takes. -/
def assembleText (d : Nat) (text : List Char) : Option U32 :=
  match parseLine text with
  | .line l => (assemble d l).map encode
  | .empty => none
  | .refused => none

end Sys2Proof.Machine
end

