-- ==== Sys2Proof/Machine/ExpandTable.lean ====
section
/-! DEFINITION. The full table as 41_expand_table R73 prints it, in four pieces; R70's algorithm (`expand`) is the
normative definition (R74), this is its tabulation. -/

namespace Sys2Proof.Machine

/-- Entries 0x00 to 0x3F of R73. -/
def tableR73Part0 : List U16 :=
  [0xAAAA#16, 0xAAA9#16, 0xAAA6#16, 0xAAA5#16, 0xAA9A#16, 0xAA99#16, 0xAA96#16, 0xAA95#16,
   0xAA6A#16, 0xAA69#16, 0xAA66#16, 0xAA65#16, 0xAA5A#16, 0xAA59#16, 0xAA56#16, 0xAA55#16,
   0xA9AA#16, 0xA9A9#16, 0xA9A6#16, 0xA9A5#16, 0xA99A#16, 0xA999#16, 0xA996#16, 0xA995#16,
   0xA96A#16, 0xA969#16, 0xA966#16, 0xA965#16, 0xA95A#16, 0xA959#16, 0xA956#16, 0xA955#16,
   0xA6AA#16, 0xA6A9#16, 0xA6A6#16, 0xA6A5#16, 0xA69A#16, 0xA699#16, 0xA696#16, 0xA695#16,
   0xA66A#16, 0xA669#16, 0xA666#16, 0xA665#16, 0xA65A#16, 0xA659#16, 0xA656#16, 0xA655#16,
   0xA5AA#16, 0xA5A9#16, 0xA5A6#16, 0xA5A5#16, 0xA59A#16, 0xA599#16, 0xA596#16, 0xA595#16,
   0xA56A#16, 0xA569#16, 0xA566#16, 0xA565#16, 0xA55A#16, 0xA559#16, 0xA556#16, 0xA555#16]

/-- Entries 0x40 to 0x7F of R73. -/
def tableR73Part1 : List U16 :=
  [0x9AAA#16, 0x9AA9#16, 0x9AA6#16, 0x9AA5#16, 0x9A9A#16, 0x9A99#16, 0x9A96#16, 0x9A95#16,
   0x9A6A#16, 0x9A69#16, 0x9A66#16, 0x9A65#16, 0x9A5A#16, 0x9A59#16, 0x9A56#16, 0x9A55#16,
   0x99AA#16, 0x99A9#16, 0x99A6#16, 0x99A5#16, 0x999A#16, 0x9999#16, 0x9996#16, 0x9995#16,
   0x996A#16, 0x9969#16, 0x9966#16, 0x9965#16, 0x995A#16, 0x9959#16, 0x9956#16, 0x9955#16,
   0x96AA#16, 0x96A9#16, 0x96A6#16, 0x96A5#16, 0x969A#16, 0x9699#16, 0x9696#16, 0x9695#16,
   0x966A#16, 0x9669#16, 0x9666#16, 0x9665#16, 0x965A#16, 0x9659#16, 0x9656#16, 0x9655#16,
   0x95AA#16, 0x95A9#16, 0x95A6#16, 0x95A5#16, 0x959A#16, 0x9599#16, 0x9596#16, 0x9595#16,
   0x956A#16, 0x9569#16, 0x9566#16, 0x9565#16, 0x955A#16, 0x9559#16, 0x9556#16, 0x9555#16]

/-- Entries 0x80 to 0xBF of R73. -/
def tableR73Part2 : List U16 :=
  [0x6AAA#16, 0x6AA9#16, 0x6AA6#16, 0x6AA5#16, 0x6A9A#16, 0x6A99#16, 0x6A96#16, 0x6A95#16,
   0x6A6A#16, 0x6A69#16, 0x6A66#16, 0x6A65#16, 0x6A5A#16, 0x6A59#16, 0x6A56#16, 0x6A55#16,
   0x69AA#16, 0x69A9#16, 0x69A6#16, 0x69A5#16, 0x699A#16, 0x6999#16, 0x6996#16, 0x6995#16,
   0x696A#16, 0x6969#16, 0x6966#16, 0x6965#16, 0x695A#16, 0x6959#16, 0x6956#16, 0x6955#16,
   0x66AA#16, 0x66A9#16, 0x66A6#16, 0x66A5#16, 0x669A#16, 0x6699#16, 0x6696#16, 0x6695#16,
   0x666A#16, 0x6669#16, 0x6666#16, 0x6665#16, 0x665A#16, 0x6659#16, 0x6656#16, 0x6655#16,
   0x65AA#16, 0x65A9#16, 0x65A6#16, 0x65A5#16, 0x659A#16, 0x6599#16, 0x6596#16, 0x6595#16,
   0x656A#16, 0x6569#16, 0x6566#16, 0x6565#16, 0x655A#16, 0x6559#16, 0x6556#16, 0x6555#16]

/-- Entries 0xC0 to 0xFF of R73. -/
def tableR73Part3 : List U16 :=
  [0x5AAA#16, 0x5AA9#16, 0x5AA6#16, 0x5AA5#16, 0x5A9A#16, 0x5A99#16, 0x5A96#16, 0x5A95#16,
   0x5A6A#16, 0x5A69#16, 0x5A66#16, 0x5A65#16, 0x5A5A#16, 0x5A59#16, 0x5A56#16, 0x5A55#16,
   0x59AA#16, 0x59A9#16, 0x59A6#16, 0x59A5#16, 0x599A#16, 0x5999#16, 0x5996#16, 0x5995#16,
   0x596A#16, 0x5969#16, 0x5966#16, 0x5965#16, 0x595A#16, 0x5959#16, 0x5956#16, 0x5955#16,
   0x56AA#16, 0x56A9#16, 0x56A6#16, 0x56A5#16, 0x569A#16, 0x5699#16, 0x5696#16, 0x5695#16,
   0x566A#16, 0x5669#16, 0x5666#16, 0x5665#16, 0x565A#16, 0x5659#16, 0x5656#16, 0x5655#16,
   0x55AA#16, 0x55A9#16, 0x55A6#16, 0x55A5#16, 0x559A#16, 0x5599#16, 0x5596#16, 0x5595#16,
   0x556A#16, 0x5569#16, 0x5566#16, 0x5565#16, 0x555A#16, 0x5559#16, 0x5556#16, 0x5555#16]

/-- The 256 entries of R73, index 0 first. -/
def tableR73 : List U16 := tableR73Part0 ++ tableR73Part1 ++ tableR73Part2 ++ tableR73Part3

end Sys2Proof.Machine
end

