-- ==== Sys2Proof/Machine/FrameOps.lean ====
section
/-! DEFINITION. The internal operations of 43_frame_driver R82 to R87 as the spec's own pseudocode gives them, run
to completion with every transport call returning, and the closed forms of R89 and 44_cycle_controller R99. The
machine runs the micro-steps of FrameDriver.lean; statements say that these are what the micro-steps add up to. -/

namespace Sys2Proof.Machine

/-- How an internal operation ends. -/
inductive FrameResult where
  | done (s : State)
  /-- ProtocolViolation was raised; the state after fault entry -/
  | raised (s : State)
  | stopped (f : Fault)
deriving DecidableEq, Repr

/-- Go on only if the operation completed. -/
def FrameResult.andThen (r : FrameResult) (k : State → FrameResult) : FrameResult :=
  match r with
  | .done s => k s
  | .raised s => .raised s
  | .stopped f => .stopped f

/-- START_FRAME (R82). -/
def startFrame (s : State) : FrameResult :=
  if s.startValid then .done (s.emit .startFrame).frameOpened else .raised s.protocolViolation

/-- EMIT_ROW of the row in `SCRATCH`; `twice` is `replicate_count = 2` (R83). -/
def emitRow (twice : Bool) (s : State) : FrameResult :=
  if s.emitValid then
    let staged := s.emit (.stage s.scratch)
    let both := if twice then (staged.emit .switchBuffer).emit (.stage s.scratch) else staged
    .done (both.emit (.writeRow s.cfgRowDelay)).clockedOut
  else .raised s.protocolViolation

/-- The trailing row (R84). -/
def trailingRow (s : State) : FrameResult := .done (s.emit (.writeRow s.cfgRowDelay)).clockedOut

/-- END_FRAME (R85). -/
def endFrame (s : State) : FrameResult :=
  if s.endValid then .done (s.emit .endFrame).frameClosed else .raised s.protocolViolation

/-- `emit Reorder(SCRATCH) ; SCRATCH <- REORDER(SCRATCH)` (R86, R87). -/
def reorderScratch (s : State) : State :=
  { s.emit (.reorder s.scratch) with scratch := reorderRow s.cfg s.scratch }

/-- One row of a fill frame: compose, reorder, emit once (R86). -/
def driveFillRow (c : Bool) (s : State) : FrameResult :=
  (emitRow false (reorderScratch { s with scratch := composeFillRow s.cfg c })).andThen fun t => .done t.rowAdvanced

/-- One row of a pixel frame: compose row `ROW`, reorder, emit twice (R87). -/
def drivePixelRow (inv : Bool) (s : State) : FrameResult :=
  match s.composePixelRow s.row.toNat inv with
  | .error f => .stopped f
  | .ok r => (emitRow true (reorderScratch { s with scratch := r })).andThen fun t => .done t.rowAdvanced

/-- A row operation, `n` times in sequence. -/
def repeatRow (row : State → FrameResult) : Nat → State → FrameResult
  | 0, s => .done s
  | n + 1, s => (row s).andThen (repeatRow row n)

/-- A frame around a row operation: open, `H` rows, the trailing row, close, `PHASE <- Idle` (R86, R87). -/
def driveFrame (row : State → FrameResult) (s : State) : FrameResult :=
  (startFrame s).andThen fun s1 =>
    (repeatRow row s.cfg.height s1).andThen fun s2 =>
      (trailingRow s2).andThen fun s3 => (endFrame s3).andThen fun s4 => .done s4.frameDone

/-- DRIVE_FILL_FRAME (R86). -/
def driveFillFrame (c : Bool) (s : State) : FrameResult := driveFrame (driveFillRow c) s

/-- DRIVE_PIXEL_FRAME (R87). -/
def drivePixelFrame (inv : Bool) (s : State) : FrameResult := driveFrame (drivePixelRow inv) s

/-! ### Closed forms (R89; 44_cycle_controller R99) -/

/-- `pixrow(FB, y, inv)` (R89). -/
def pixRow (c : Config) (fb : Memory) (y : Nat) (inv : Bool) : Row :=
  (List.range c.rowWords).map fun j => lut (lutIndex inv (fb.read (rowBase c y + j)))

/-- `fillrow(c)` (R89). -/
def fillRow (c : Config) (black : Bool) : Row :=
  List.replicate c.rowWords (if black then 0x5555#16 else 0xAAAA#16)

/-- `FILLROW_EV(c)` (R89). -/
def fillRowEvents (c : Config) (d : U32) (black : Bool) : List Event :=
  [.reorder (fillRow c black), .stage (reorderRow c (fillRow c black)), .writeRow d]

/-- `PIXROW_EV(FB, y, inv)` (R89). -/
def pixRowEvents (c : Config) (d : U32) (fb : Memory) (y : Nat) (inv : Bool) : List Event :=
  [.reorder (pixRow c fb y inv), .stage (reorderRow c (pixRow c fb y inv)), .switchBuffer,
    .stage (reorderRow c (pixRow c fb y inv)), .writeRow d]

/-- `FILLFRAME(c)` (R89). -/
def fillFrame (c : Config) (d : U32) (black : Bool) : List Event :=
  [.startFrame] ++ (List.range c.height).flatMap (fun _ => fillRowEvents c d black) ++ [.writeRow d, .endFrame]

/-- `PIXELFRAME(FB, inv)` (R89). -/
def pixelFrame (c : Config) (d : U32) (fb : Memory) (inv : Bool) : List Event :=
  [.startFrame] ++ (List.range c.height).flatMap (fun y => pixRowEvents c d fb y inv) ++ [.writeRow d, .endFrame]

/-- A frame's events, `n` times (44_cycle_controller R99). -/
def repeatFrame (n : Nat) (frame : List Event) : List Event := (List.replicate n frame).flatten

end Sys2Proof.Machine
end

