-- ==== Sys2Proof/Safety.lean ====
section
/-! DEFINITION. What counts as a safe run, in the terms the statements use: the end of a run (70_reset R138), the
invariant of the control state (10_state R19, 43_frame_driver R92), and the grammar of the trace (60_exceptions R119,
70_reset R131 to R133). -/

namespace Sys2Proof.Machine

/-! ### Runs (70_reset R138) -/

/-- `k` steps of the machine. -/
def run (k : Nat) (s : State) : Out := Host.Core.run Sys2Proof.core k s

/-- "It is *over* when every word has been accepted and `BUSY = 0`, `SEQ = S_IDLE`, `PHASE = Idle`." -/
def State.over (s : State) : Bool :=
  s.cmdIn.all (fun c => c.isNone) && !s.busy && decide (s.seq = .idle) && decide (s.phase = .idle)

/-- "It ended *well* if also `FAULT = 0`." -/
def State.endedWell (s : State) : Bool := s.over && !s.fault

/-- "Its result is the triple (`FB`, `TRACE`, `STATUS`)", of a run that is over; one that "is not over ... has no
result". -/
def State.result (s : State) : Option (Memory × List Event × U32) :=
  if s.over then some (s.fb, s.trace, s.statusWord) else none

/-- "A run is a finite sequence of command words presented after reset": the block and its memories after reset, what
the host presents, and the transport's answers. Every word stands in `presented`; its `none`s are steps in which the
host presents nothing (log 6). `rst` is not asserted again: a later reset begins another run (log 25). -/
structure Run where
  cfg : Config
  /-- `FB_INIT` and the contents of `SCRATCH` (R126, R127) -/
  image : ResetImage
  presented : List (Option U32)
  /-- `t_ack`, first the listed answers and then the last (log 8) -/
  acks : List Bool
  ackRest : Bool
deriving DecidableEq, Repr

namespace Run

/-- The command words of the run, in the order in which they are presented. -/
def words (r : Run) : List U32 := r.presented.filterMap id

/-- The block right after reset, with the run's words at its command port. -/
def start (r : Run) : State :=
  { State.powerOn r.cfg r.image with cmdIn := r.presented, ackIn := r.acks, ackRest := r.ackRest }

/-- The run after `k` steps. -/
def after (r : Run) (k : Nat) : Out := run k r.start

/-- The run's result if it is over after `k` steps, and nothing if it is not. -/
def resultAt (r : Run) (k : Nat) : Option (Memory × List Event × U32) :=
  match r.after k with
  | .next t => t.result
  | .fault _ => none
  | .refused _ => none

/-- The run has the result `x`: it is over at some time, with `x`. -/
def HasResult (r : Run) (x : Memory × List Event × U32) : Prop := ∃ k, r.resultAt k = some x

/-- The run is over at some time and ended well. -/
def EndsWell (r : Run) : Prop := ∃ k t, r.after k = .next t ∧ t.endedWell = true

end Run

/-- No reset is asserted or being released now, and none will be asserted. -/
def State.noReset (s : State) : Prop := s.rstIn = [] ∧ s.inReset = false

/-- Every transport call completes at once: the assumption of 70_reset R137, for the closed forms. -/
def State.callsReturn (s : State) : Prop := s.ackIn = [] ∧ s.ackRest = true

/-- Between commands (10_state R19): the block can accept a word. -/
def State.ready (s : State) : Prop := s.seq = .idle ∧ s.busy = false ∧ s.fault = false ∧ s.phase = .idle

/-- Sequencer micro-steps of a fill frame after acceptance, from `S_CYCLE_CHECK` back to it (43_frame_driver R88). -/
def fillFrameSteps (h : Nat) : Nat := 5 * h + 6

/-- The same for a pixel frame (43_frame_driver R88). -/
def pixelFrameSteps (h : Nat) : Nat := 7 * h + 6

/-- No reset in this step, and a word that the block accepts in it (30_encoding R59). -/
def State.accepts (s : State) (w : U32) (rest : List (Option U32)) : Prop :=
  s.cfg.wf = true ∧ s.rstNow = none ∧ s.inReset = false ∧ s.seq = .idle ∧ s.busy = false ∧ s.fault = false ∧
    s.cmdIn = some w :: rest

/-- The state a command runs on: the word is taken from the port, a step has passed at the reset input. -/
def State.accepted (s : State) (rest : List (Option U32)) : State :=
  { s with cmdIn := rest, rstIn := s.rstIn.tail }

/-- The sequencer is running: an admitted configuration, no reset in this step, `SEQ` not `S_IDLE`. -/
def State.running (s : State) : Prop :=
  s.cfg.wf = true ∧ s.rstNow = none ∧ s.inReset = false ∧ s.seq ≠ .idle

/-! ### Kinds of events, for the counts of 43_frame_driver R90 -/

def Event.isStart : Event → Bool
  | .startFrame => true
  | .reorder _ => false
  | .stage _ => false
  | .switchBuffer => false
  | .writeRow _ => false
  | .endFrame => false

def Event.isReorder : Event → Bool
  | .startFrame => false
  | .reorder _ => true
  | .stage _ => false
  | .switchBuffer => false
  | .writeRow _ => false
  | .endFrame => false

def Event.isStage : Event → Bool
  | .startFrame => false
  | .reorder _ => false
  | .stage _ => true
  | .switchBuffer => false
  | .writeRow _ => false
  | .endFrame => false

def Event.isSwitch : Event → Bool
  | .startFrame => false
  | .reorder _ => false
  | .stage _ => false
  | .switchBuffer => true
  | .writeRow _ => false
  | .endFrame => false

def Event.isWrite : Event → Bool
  | .startFrame => false
  | .reorder _ => false
  | .stage _ => false
  | .switchBuffer => false
  | .writeRow _ => true
  | .endFrame => false

def Event.isEnd : Event → Bool
  | .startFrame => false
  | .reorder _ => false
  | .stage _ => false
  | .switchBuffer => false
  | .writeRow _ => false
  | .endFrame => true

/-! ### The invariant of the control state -/

/-- Inside a frame with `ROW` rows clocked out: `ROWS_OUT = ROW`, and `PHASE` says whether there was one (R18, R19,
43_frame_driver R92). -/
def State.inFrame (s : State) : Prop :=
  s.busy = true ∧ s.cyc ≠ 0#16 ∧ s.rowsOut = s.row ∧
    s.phase = (if s.row = 0#13 then Phase.frameOpen else Phase.rowEmitted)

/-- What holds of `BUSY`, `CYC`, `PHASE`, `ROW`, `ROWS_OUT`, `MODE` at each value of `SEQ`. -/
def State.controlOk (s : State) : Prop :=
  match s.seq with
  | .idle => s.busy = false ∧ s.phase = .idle ∧ s.cyc = 0#16
  | .cycleCheck => s.busy = true ∧ s.phase = .idle
  | .start => s.busy = true ∧ s.phase = .idle ∧ s.cyc ≠ 0#16
  | .rowCheck => s.inFrame ∧ s.row.toNat ≤ s.cfg.height
  | .compose => s.inFrame ∧ s.row.toNat < s.cfg.height
  | .reorder => s.inFrame ∧ s.row.toNat < s.cfg.height
  | .stage1 => s.inFrame ∧ s.row.toNat < s.cfg.height
  | .switch => s.inFrame ∧ s.row.toNat < s.cfg.height ∧ s.mode = .pixel
  | .stage2 => s.inFrame ∧ s.row.toNat < s.cfg.height ∧ s.mode = .pixel
  | .clock => s.inFrame ∧ s.row.toNat < s.cfg.height
  | .trail => s.inFrame ∧ s.row.toNat = s.cfg.height
  | .endFrame =>
    s.busy = true ∧ s.cyc ≠ 0#16 ∧ s.phase = .rowEmitted ∧ s.row.toNat = s.cfg.height ∧
      s.rowsOut.toNat = s.cfg.height + 1
  | .next => s.busy = true ∧ s.cyc ≠ 0#16 ∧ s.phase = .frameClosed

/-- The fault registers (10_state R21, R22; 60_exceptions R102, R106): clear without a fault; with one, the block is
stopped in `S_IDLE` and the fault is one that a command raises. -/
def State.faultOk (s : State) : Prop :=
  (s.fault = false → s.fcode = .none ∧ s.finfo = 0x00000000#32) ∧
    (s.fault = true → s.seq = .idle ∧ s.fcode ≠ .none ∧ s.fcode ≠ .protocolViolation)

/-- The invariant that every step keeps, from every state that meets it. -/
structure State.Inv (s : State) : Prop where
  /-- 00_scope R7 -/
  admitted : s.cfg.wf = true
  /-- `FB` is in canonical form -/
  fbWf : s.fb.wf = true
  /-- `FB` has no byte at or beyond `FB_BYTES` (10_state R14) -/
  fbBelow : s.fb.below s.cfg.fbBytes = true
  /-- `SCRATCH` is `ROW_WORDS` words (10_state R17) -/
  scratchLength : s.scratch.length = s.cfg.rowWords
  /-- `CFG_ROW_DELAY` holds `ROW_DELAY` (10_state R25) -/
  delay : s.cfgRowDelay = s.cfg.rowDelay
  faultRegisters : s.faultOk
  control : s.controlOk
  /-- RENDER checked `FB_LEN` when it was accepted (44_cycle_controller R97) -/
  pixelMode : s.busy = true → s.mode = .pixel → s.cfg.fbAttached = true

/-! ### The grammar of the trace (60_exceptions R119) -/

/-- Where in the grammar a trace has come to; `k` is the number of real rows clocked out in the open frame, `kind`
whether its rows are staged once or twice (not yet known before the first). -/
inductive TracePos where
  /-- outside a frame -/
  | outside
  /-- between rows -/
  | betweenRows (k : Nat) (kind : Option Mode)
  /-- row `r` has been reordered, not yet staged -/
  | reordered (k : Nat) (kind : Option Mode) (r : Row)
  /-- row `q` has been staged once -/
  | staged (k : Nat) (kind : Option Mode) (q : Row)
  /-- row `q` has been staged, and the slot switched -/
  | switched (k : Nat) (q : Row)
  /-- the row has been staged in both slots -/
  | stagedTwice (k : Nat)
  /-- the trailing row has been clocked out -/
  | trailed
deriving DecidableEq, Repr

/-- One event read: `none` where the grammar `( StartFrame ( Reorder Stage (SwitchBuffer Stage)? WriteRow )^H
WriteRow EndFrame )*` does not allow it, where a staged row is not the reordered one (42_row_compositor R79), or
where a delay is not `CFG_ROW_DELAY` (43_frame_driver R80). -/
def TracePos.read (c : Config) (p : TracePos) (e : Event) : Option TracePos :=
  match p, e with
  | .outside, .startFrame => some (.betweenRows 0 none)
  | .betweenRows k kind, .reorder r => if k < c.height then some (.reordered k kind r) else none
  | .betweenRows k _, .writeRow d => if k = c.height ∧ d = c.rowDelay then some .trailed else none
  | .reordered k kind r, .stage q => if q = reorderRow c r then some (.staged k kind q) else none
  | .staged k kind q, .switchBuffer => if kind ≠ some .fill then some (.switched k q) else none
  | .staged k kind _, .writeRow d =>
    if kind ≠ some .pixel ∧ d = c.rowDelay then some (.betweenRows (k + 1) (some .fill)) else none
  | .switched k q, .stage q' => if q' = q then some (.stagedTwice k) else none
  | .stagedTwice k, .writeRow d => if d = c.rowDelay then some (.betweenRows (k + 1) (some .pixel)) else none
  | .trailed, .endFrame => some .outside
  | _, _ => none

/-- A whole trace read from a position. -/
def TracePos.readAll (c : Config) : TracePos → List Event → Option TracePos
  | p, [] => some p
  | p, e :: es =>
    match p.read c e with
    | some q => q.readAll c es
    | none => none

/-- The kind of the open frame's rows: known once a row has been clocked out. -/
def State.frameKind (s : State) : Option Mode := if s.row = 0#13 then none else some s.mode

/-- Is the position the one that `SEQ`, `ROW`, `MODE` and `SCRATCH` stand for? -/
def State.atPos (s : State) (p : TracePos) : Prop :=
  match s.seq with
  | .idle => p = .outside
  | .cycleCheck => p = .outside
  | .start => p = .outside
  | .rowCheck => p = .betweenRows s.row.toNat s.frameKind
  | .compose => p = .betweenRows s.row.toNat s.frameKind
  | .reorder => p = .betweenRows s.row.toNat s.frameKind
  | .stage1 => ∃ r, s.scratch = reorderRow s.cfg r ∧ p = .reordered s.row.toNat s.frameKind r
  | .switch => p = .staged s.row.toNat s.frameKind s.scratch
  | .stage2 => p = .switched s.row.toNat s.scratch
  | .clock =>
    match s.mode with
    | .fill => p = .staged s.row.toNat s.frameKind s.scratch
    | .pixel => p = .stagedTwice s.row.toNat
  | .trail => p = .betweenRows s.row.toNat s.frameKind
  | .endFrame => p = .trailed
  | .next => p = .outside

/-- `TRACE` is in the grammar, and stands where the sequencer stands. -/
def State.traceOk (s : State) : Prop := ∃ p, TracePos.readAll s.cfg .outside s.trace = some p ∧ s.atPos p

end Sys2Proof.Machine
end

