-- ==== Sys2Proof/Certificates/Slice0/Obligations.lean ====
section
/-! DEFINITION. The statements for the provers, each with the rule of spec/ it formalises. -/

open Sys2Proof Sys2Proof.Machine

/-! ### Encoding (30_encoding) -/

/-- R49, R55: no bit of an encoding is dropped, every operand at every value its field admits. -/
def Obligations.DecodeOfEncodeIsTheCommand : Prop :=
  ∀ i : Instr, decode (encode i) = .instr i

/-- R55: total, injective on legal words, and encoding a decoded command gives the word back. -/
def Obligations.DecoderTotalAndInjective : Prop :=
  (∀ w : U32, (∃ i, decode w = .instr i) ∨ (∃ why, decode w = .illegal why)) ∧
    (∀ (w w' : U32) (i : Instr), decode w = .instr i → decode w' = .instr i → w = w') ∧
    (∀ (w : U32) (i : Instr), decode w = .instr i → encode i = w)

/-- R51: the map's rows, the match sets disjoint, and a word's command is of the row that the word selects. -/
def Obligations.OpcodeMapSelectsTheCommand : Prop :=
  opcodeMap =
      [⟨"CLEAR", 0xFFFFFFFF#32, 0x10000000#32⟩, ⟨"FILL", 0xF7FFFFFF#32, 0x20000000#32⟩,
        ⟨"SETPX", 0xF7000000#32, 0x30000000#32⟩, ⟨"FLASH", 0xF7FF0000#32, 0x40000000#32⟩,
        ⟨"RENDER", 0xF7FF0000#32, 0x50000000#32⟩] ∧
    (∀ (w : U32) (r r' : OpRow), r ∈ opcodeMap → r' ∈ opcodeMap → w &&& r.mask = r.pattern →
      w &&& r'.mask = r'.pattern → r = r') ∧
    (∀ (w : U32) (r : OpRow), r ∈ opcodeMap → w &&& r.mask = r.pattern →
      ∃ i, decode w = .instr i ∧ i.row = r) ∧
    (∀ (w : U32) (i : Instr), decode w = .instr i → w &&& i.row.mask = i.row.pattern)

/-- R53: exactly which words are illegal, and that an accepted one raises IllegalCommand and changes nothing else. -/
def Obligations.IllegalWordsAreExactlyThese : Prop :=
  (∀ w : U32, (∃ why, decode w = .illegal why) ↔
      (w.extractLsb' 28 4 = 0x0#4 ∨ 6 ≤ (w.extractLsb' 28 4).toNat) ∨
      w.extractLsb' 24 3 ≠ 0#3 ∨
      (w.extractLsb' 28 4 = 0x1#4 ∧ (w.getLsbD 27 = true ∨ w.extractLsb' 0 24 ≠ 0#24)) ∨
      (w.extractLsb' 28 4 = 0x2#4 ∧ w.extractLsb' 0 24 ≠ 0#24) ∨
      ((w.extractLsb' 28 4 = 0x4#4 ∨ w.extractLsb' 28 4 = 0x5#4) ∧ w.extractLsb' 16 8 ≠ 0#8)) ∧
    (∃ why, decode 0x00000000#32 = .illegal why) ∧ (∃ why, decode 0xFFFFFFFF#32 = .illegal why) ∧
    (∀ (s : State) (w : U32) (rest : List (Option U32)), s.accepts w rest → (∃ why, decode w = .illegal why) →
      step s = .next { s.accepted rest with
        fault := true, fcode := .illegalCommand, finfo := w, seq := .idle, busy := false })

/-- R49 to R51: words written out bit by bit from the formats (95_test_vectors B1). -/
def Obligations.DecodesTheSpecsWords : Prop :=
  decode 0b00010000000000000000000000000000#32 = .instr .clear ∧
    decode 0b00101000000000000000000000000000#32 = .instr (.fill true) ∧
    decode 0b00111000001000011011001110111111#32 = .instr (.setpx true 539#12 959#12) ∧
    decode 0b01001000000000001111111111111111#32 = .instr (.flash true 65535#16) ∧
    decode 0b01011000000000000000000000000010#32 = .instr (.render true 2#16)

/-- R56, R57: the assembler's word for each form, pseudo-instructions included, and what it refuses. -/
def Obligations.AssemblerGivesTheTablesWords : Prop :=
  (∀ d, (assemble d .clear).map encode = some 0x10000000#32) ∧
    (∀ d v, v.valueOk = true → (assemble d (.fill v)).map encode =
      some (0x20000000#32 ||| (BitVec.ofBool (asmValue v)).setWidth 32 <<< 27)) ∧
    (∀ d x y v, x ≤ 4095 → y ≤ 4095 → v.valueOk = true → (assemble d (.setpx x y v)).map encode =
      some (0x30000000#32 ||| (BitVec.ofBool (asmValue v)).setWidth 32 <<< 27 ||| BitVec.ofNat 32 y <<< 12 |||
        BitVec.ofNat 32 x)) ∧
    (∀ d c n, c.colourOk = true → n ≤ 65535 → (assemble d (.flash c n)).map encode =
      some (0x40000000#32 ||| (BitVec.ofBool (asmValue c)).setWidth 32 <<< 27 ||| BitVec.ofNat 32 n)) ∧
    (∀ d n i, n ≤ 65535 → i.inverseOk = true → (assemble d (.render n i)).map encode =
      some (0x50000000#32 ||| (BitVec.ofBool (asmValue i)).setWidth 32 <<< 27 ||| BitVec.ofNat 32 n)) ∧
    (∀ d c, assemble d (.flashDefault c) = assemble d (.flash c d)) ∧
    (∀ d, assemble d .renderDefault = assemble d (.render d (.num 0))) ∧
    (∀ d n, assemble d (.renderNormal n) = assemble d (.render n (.num 0))) ∧
    (∀ d, assemble d .whitewash = assemble d (.flash .white d)) ∧
    (∀ d l, assemble d l = none ↔ (expandPseudo d l).wf = false) ∧
    (∀ n, asmValue (.num n) = true ↔ n = 1) ∧ asmValue .isTrue = true ∧ asmValue .isFalse = false ∧
    asmValue .black = true ∧ asmValue .white = false

/-! ### Acceptance and reset (30_encoding R59, 70_reset R124, R125) -/

/-- R59: when the word at the port decodes to a command and the block is ready, the step is that command, run on the
state with the word taken from the port. -/
def Obligations.StepRunsTheDecodedCommand : Prop :=
  ∀ (s : State) (w : U32) (rest : List (Option U32)) (i : Instr), s.accepts w rest → decode w = .instr i →
    step s = exec i (s.accepted rest)

/-- R105: an accepted illegal word raises IllegalCommand with the word in `FINFO`. -/
def Obligations.IllegalWordRaisesIllegalCommand : Prop :=
  ∀ (s : State) (w : U32) (rest : List (Option U32)) (why : IllegalWord), s.accepts w rest →
    decode w = .illegal why → step s = .next ((s.accepted rest).raise .illegalCommand w)

/-- R59: while `cmd_ready = 0` the word is not accepted and not lost, whatever else the step does. -/
def Obligations.WordIsHeldWhileNotReady : Prop :=
  ∀ (s t : State) (w : U32) (rest : List (Option U32)), s.cmdIn = some w :: rest → s.cmdReady = false →
    step s = .next t → t.cmdIn = s.cmdIn

/-- R109: with `FAULT = 1` every step without reset leaves the fault registers, the memories, the sequencer and the
trace as they are and accepts nothing; a state with `FAULT = 1` is no good end of a run; a reset clears `FAULT`. -/
def Obligations.FaultIsStickyUntilReset : Prop :=
  (∀ s : State, s.Inv → s.fault = true → s.rstNow = none →
      ∃ t, step s = .next t ∧ t.fault = true ∧ t.fcode = s.fcode ∧ t.finfo = s.finfo ∧ t.cmdReady = false ∧
        t.fb = s.fb ∧ t.scratch = s.scratch ∧ t.trace = s.trace ∧ t.seq = s.seq ∧ t.phase = s.phase ∧
        t.cmdIn = heldCommands s.cmdIn) ∧
    (∀ (s t : State), s.fault = true → s.rstNow = none → step s = .next t → t.fault = true) ∧
    (∀ s : State, s.fault = true → s.cmdReady = false ∧ s.endedWell = false) ∧
    (∀ (s : State) (img : ResetImage), s.cfg.wf = true → s.rstNow = some img →
      ∃ t, step s = .next t ∧ t.fault = false ∧ t.cmdReady = true)

/-- R125: what a step with `rst` asserted leaves, from any state, for any `FB_INIT`. -/
def Obligations.ResetLeavesTheResetValues : Prop :=
  ∀ (s : State) (img : ResetImage), s.cfg.wf = true → s.rstNow = some img → img.fb.length = s.cfg.fbBytes →
    ∃ t, step s = .next t ∧ (∀ a, a < s.cfg.fbBytes → img.fb[a]? = some (t.fb.read a)) ∧
      (∀ b, lut b = expand b) ∧ t.phase = .idle ∧ t.seq = .idle ∧ t.mode = .fill ∧ t.a = false ∧ t.cyc = 0#16 ∧
      t.row = 0#13 ∧ t.rowsOut = 0#13 ∧ t.busy = false ∧ t.fault = false ∧ t.fcode = .none ∧
      t.finfo = 0x00000000#32 ∧ t.cfgRowDelay = s.cfg.rowDelay ∧ t.statusWord = 0x00000000#32 ∧ t.trace = [] ∧
      t.cmdReady = true

/-- R124: in the step in which `rst` is released the reset state stays and nothing is accepted; the inputs go on. That
the release is a step of its own is the model's reading (log 7). -/
def Obligations.ResetReleaseAcceptsNothing : Prop :=
  ∀ s : State, s.cfg.wf = true → s.rstNow = none → s.inReset = true →
    step s = .next { s with cmdIn := heldCommands s.cmdIn, rstIn := s.rstIn.tail, inReset := false }

/-- Derived from R125 to R127: the state after reset, for every admitted configuration and every contents of the two
memories, meets the invariant and has a trace that meets `traceOk`. So does `State.reset`: its configuration, its `FB`
and its `SCRATCH` are THE MODEL'S CHOICE (log 2, 3, 4; DESIGN CHOICE, unsafe), and the last two clauses rest on it. -/
def Obligations.ResetStatesMeetTheInvariant : Prop :=
  (∀ (c : Config) (img : ResetImage), c.wf = true → (State.powerOn c img).Inv ∧ (State.powerOn c img).traceOk) ∧
    State.reset.Inv ∧ State.reset.traceOk

/-! ### The pixel buffer commands (40_pixel_buffer) -/

/-- R62: CLEAR makes every byte of `FB` `0x00`, changes nothing else, and equals FILL 0; on a malformed attachment it
raises BufferSizeMismatch with its word. -/
def Obligations.ClearMakesEveryByteWhite : Prop :=
  ∀ s : State, s.cfg.wf = true → s.fb.wf = true →
    (s.cfg.fbAttached = true →
      (∃ m : Memory, exec .clear s = .next { s with fb := m } ∧ m.wf = true ∧
        ∀ a, m.read a = if a < s.cfg.fbBytes then 0x00#8 else s.fb.read a) ∧
      exec .clear s = exec (.fill false) s) ∧
    (s.cfg.fbAttached = false → exec .clear s = .next (s.raise .bufferSizeMismatch 0x10000000#32))

/-- R64: FILL makes every byte of `FB` `0xFF` or `0x00` and changes nothing else. -/
def Obligations.FillMakesEveryByteUniform : Prop :=
  ∀ (s : State) (v : Bool), s.cfg.wf = true → s.fb.wf = true →
    (s.cfg.fbAttached = true →
      ∃ m : Memory, exec (.fill v) s = .next { s with fb := m } ∧ m.wf = true ∧
        ∀ a, m.read a = if a < s.cfg.fbBytes then (if v then 0xFF#8 else 0x00#8) else s.fb.read a) ∧
    (s.cfg.fbAttached = false →
      exec (.fill v) s = .next (s.raise .bufferSizeMismatch (if v then 0x28000000#32 else 0x20000000#32)))

/-- R63: SETPX changes bit `k` of byte `a` and nothing else; out of range it raises OutOfRange and `FB` is unchanged. -/
def Obligations.SetpxChangesOneBit : Prop :=
  ∀ (s : State) (v : Bool) (y x : BitVec 12), s.cfg.wf = true → s.fb.wf = true →
    (s.cfg.fbAttached = false →
      exec (.setpx v y x) s = .next (s.raise .bufferSizeMismatch (encode (.setpx v y x)))) ∧
    (s.cfg.fbAttached = true → (s.cfg.width ≤ x.toNat ∨ s.cfg.height ≤ y.toNat) →
      exec (.setpx v y x) s = .next (s.raise .outOfRange (encode (.setpx v y x)))) ∧
    (s.cfg.fbAttached = true → x.toNat < s.cfg.width → y.toNat < s.cfg.height →
      ∃ m : Memory, exec (.setpx v y x) s = .next { s with fb := m } ∧ m.wf = true ∧
        (∀ b, b ≠ (y.toNat * s.cfg.width + x.toNat) / 8 → m.read b = s.fb.read b) ∧
        ∀ j, j < 8 → (m.read ((y.toNat * s.cfg.width + x.toNat) / 8)).getLsbD j =
          if j = (match s.cfg.fbBitOrder with
            | .lsb0 => (y.toNat * s.cfg.width + x.toNat) % 8
            | .msb0 => 7 - (y.toNat * s.cfg.width + x.toNat) % 8)
          then v else (s.fb.read ((y.toNat * s.cfg.width + x.toNat) / 8)).getLsbD j)

/-- R66 (a), (b): after CLEAR, and after FILL 1 then FILL 0, every pixel is white. -/
def Obligations.ClearAndFillLeaveEveryPixelWhite : Prop :=
  ∀ s : State, s.cfg.wf = true → s.fb.wf = true → s.cfg.fbAttached = true →
    (∃ t, exec .clear s = .next t ∧ ∀ x y, x < s.cfg.width → y < s.cfg.height → getpx t x y = false) ∧
    (∃ t u, exec (.fill true) s = .next t ∧ exec (.fill false) t = .next u ∧
      (∀ x y, x < s.cfg.width → y < s.cfg.height → getpx t x y = true) ∧
      ∀ x y, x < s.cfg.width → y < s.cfg.height → getpx u x y = false)

/-- R66 (c), (d): a pixel reads back as set, every other pixel is unchanged. -/
def Obligations.SetpxReadsBackAndLeavesOthers : Prop :=
  ∀ (s : State) (v : Bool) (y x : BitVec 12), s.cfg.wf = true → s.fb.wf = true → s.cfg.fbAttached = true →
    x.toNat < s.cfg.width → y.toNat < s.cfg.height →
    ∃ t, exec (.setpx v y x) s = .next t ∧ getpx t x.toNat y.toNat = v ∧
      ∀ x' y', x' < s.cfg.width → y' < s.cfg.height → (x', y') ≠ (x.toNat, y.toNat) → getpx t x' y' = getpx s x' y'

/-- R66 (e), (f): the last write of a pixel wins, as equal states; black then white restores `FB` exactly if and only
if the pixel was white. -/
def Obligations.SetpxLastWriteWins : Prop :=
  ∀ (s : State) (v v' : Bool) (y x : BitVec 12), s.cfg.wf = true → s.fb.wf = true → s.cfg.fbAttached = true →
    x.toNat < s.cfg.width → y.toNat < s.cfg.height →
    (∃ t u, exec (.setpx v y x) s = .next t ∧ exec (.setpx v' y x) t = .next u ∧ exec (.setpx v' y x) s = .next u) ∧
    (∃ t u, exec (.setpx true y x) s = .next t ∧ exec (.setpx false y x) t = .next u ∧
      (u.fb = s.fb ↔ getpx s x.toNat y.toNat = false))

/-- R66 (g): SETPX on different coordinates commute, as equal states. -/
def Obligations.SetpxOnDifferentPixelsCommute : Prop :=
  ∀ (s : State) (v v' : Bool) (y x y' x' : BitVec 12), s.cfg.wf = true → s.fb.wf = true →
    s.cfg.fbAttached = true → x.toNat < s.cfg.width → y.toNat < s.cfg.height → x'.toNat < s.cfg.width →
    y'.toNat < s.cfg.height → (x, y) ≠ (x', y') →
    ∃ t t' u, exec (.setpx v y x) s = .next t ∧ exec (.setpx v' y' x') t = .next u ∧
      exec (.setpx v' y' x') s = .next t' ∧ exec (.setpx v y x) t' = .next u

/-- R66 (h): every bit of `FB` is exactly one pixel. -/
def Obligations.PixelAddressesAreABijection : Prop :=
  ∀ c : Config, c.wf = true →
    (∀ x y, x < c.width → y < c.height → pixelByte c y x < c.fbBytes ∧ pixelBit c y x < 8) ∧
    ∀ a k, a < c.fbBytes → k < 8 →
      ∃ x y, x < c.width ∧ y < c.height ∧ pixelByte c y x = a ∧ pixelBit c y x = k ∧
        ∀ x' y', x' < c.width → y' < c.height → pixelByte c y' x' = a → pixelBit c y' x' = k → x' = x ∧ y' = y

/-- R67 and 40_pixel_buffer's opening: CLEAR, FILL and SETPX touch nothing but `FB`, or the fault latch. -/
def Obligations.PixelCommandsTouchOnlyFbOrTheLatch : Prop :=
  ∀ (s t : State) (i : Instr), (i = .clear ∨ (∃ v, i = .fill v) ∨ (∃ v y x, i = .setpx v y x)) →
    exec i s = .next t →
    (t = { s with fb := t.fb } ∧ ∀ a, s.cfg.fbBytes ≤ a → s.fb.wf = true → t.fb.read a = s.fb.read a) ∨
    t = { s with fault := true, fcode := t.fcode, finfo := encode i, seq := .idle, busy := false }

/-! ### Faults (60_exceptions) -/

/-- R104: the commands that use `FB` raise BufferSizeMismatch before anything else happens; FLASH does not check. -/
def Obligations.BufferSizeMismatchOnMalformedAttachment : Prop :=
  ∀ s : State, s.cfg.wf = true → s.cfg.fbLen ≠ s.cfg.fbBytes →
    (∀ i : Instr, (i = .clear ∨ (∃ v, i = .fill v) ∨ (∃ v y x, i = .setpx v y x) ∨ (∃ a n, i = .render a n)) →
      exec i s = .next { s with
        fault := true, fcode := .bufferSizeMismatch, finfo := encode i, seq := .idle, busy := false }) ∧
    ∀ a n, exec (.flash a n) s =
      .next { s with mode := .fill, a := a, cyc := n, busy := true, seq := .cycleCheck }

/-- R103: SETPX checks each coordinate before it touches `FB`, not `index`. -/
def Obligations.OutOfRangeSetpxRaises : Prop :=
  ∀ (s : State) (v : Bool) (y x : BitVec 12), s.cfg.wf = true → s.cfg.fbAttached = true →
    (s.cfg.width ≤ x.toNat ∨ s.cfg.height ≤ y.toNat) →
    exec (.setpx v y x) s = .next { s with
      fault := true, fcode := .outOfRange, finfo := encode (.setpx v y x), seq := .idle, busy := false }

/-- R108: IllegalCommand, then BufferSizeMismatch, then OutOfRange. -/
def Obligations.FaultPriority : Prop :=
  ∀ (s : State) (w : U32) (rest : List (Option U32)), s.accepts w rest →
    ((∃ why, decode w = .illegal why) → ∃ t, step s = .next t ∧ t.fcode = .illegalCommand) ∧
    (∀ v y x, decode w = .instr (.setpx v y x) → s.cfg.fbAttached = false →
      ∃ t, step s = .next t ∧ t.fcode = .bufferSizeMismatch) ∧
    (∀ v y x, decode w = .instr (.setpx v y x) → s.cfg.fbAttached = true →
      Instr.onPanel s.cfg (.setpx v y x) = false → ∃ t, step s = .next t ∧ t.fcode = .outOfRange)

/-- R106: a command that faults has had no effect but fault entry: nothing but the fault registers, `SEQ` and `BUSY`
differs, and `FINFO` is the accepted word. -/
def Obligations.FaultsArePrecise : Prop :=
  (∀ (s : State) (f : FaultCode) (info : U32),
      s.raise f info = { s with fault := true, fcode := f, finfo := info, seq := .idle, busy := false }) ∧
    (∀ (s t : State) (i : Instr), s.fault = false → exec i s = .next t → t.fault = true →
      t.fcode ≠ .none ∧ t = s.raise t.fcode (encode i)) ∧
    (∀ (s t : State) (w : U32) (rest : List (Option U32)), s.accepts w rest → step s = .next t → t.fault = true →
      t.fcode ≠ .none ∧ t = (s.accepted rest).raise t.fcode w)

/-- R107, R81, with R82, R83, R85: an internal frame operation outside its valid phase raises ProtocolViolation with
`FINFO = 0`. The last clause, on the step of the sequencer, is THE MODEL'S READING (log 12, DEDUCED): `S_START`,
`S_STAGE1` and `S_END` check before the call and raise whatever the transport answers. R92: no run reaches it. -/
def Obligations.InvalidFrameOperationRaises : Prop :=
  ∀ s : State,
    (s.phase ≠ .idle → startFrame s = .raised (s.raise .protocolViolation 0x00000000#32)) ∧
    (∀ twice, s.phase ≠ .frameOpen → s.phase ≠ .rowEmitted →
      emitRow twice s = .raised (s.raise .protocolViolation 0x00000000#32)) ∧
    ((s.phase ≠ .rowEmitted ∨ s.rowsOut.toNat < s.cfg.height + 1) →
      endFrame s = .raised (s.raise .protocolViolation 0x00000000#32)) ∧
    (s.running → (s.seq = .start ∧ s.phase ≠ .idle ∨ s.seq = .stage1 ∧ s.phase ≠ .frameOpen ∧ s.phase ≠ .rowEmitted ∨
      s.seq = .endFrame ∧ (s.phase ≠ .rowEmitted ∨ s.rowsOut.toNat < s.cfg.height + 1)) →
      step s = .next (s.tick.raise .protocolViolation 0x00000000#32))

/-- R23, R18, R102: the bits of `STATUS`. -/
def Obligations.StatusWordLayout : Prop :=
  ∀ s : State, s.statusWord.getLsbD 0 = s.busy ∧ s.statusWord.getLsbD 1 = s.fault ∧
    s.statusWord.extractLsb' 2 4 =
      (match s.fcode with
        | .none => 0#4 | .illegalCommand => 1#4 | .outOfRange => 2#4 | .bufferSizeMismatch => 3#4
        | .protocolViolation => 4#4) ∧
    s.statusWord.extractLsb' 6 2 =
      (match s.phase with
        | .idle => 0#2 | .frameOpen => 1#2 | .rowEmitted => 2#2 | .frameClosed => 3#2) ∧
    s.statusWord.extractLsb' 8 24 = 0#24

/-! ### The table and the compositor (41_expand_table, 42_row_compositor) -/

/-- R70: input bit `i` gives output bits `2i+1:2i`, `01` for 1 and `10` for 0. -/
def Obligations.ExpandSubstitutesPairs : Prop :=
  (∀ (b : U8) (i : Fin 8), (expand b).extractLsb' (2 * i.val) 2 = if b.getLsbD i.val then 0b01#2 else 0b10#2) ∧
    expand 0x00#8 = 0xAAAA#16 ∧ expand 0xFF#8 = 0x5555#16 ∧ expand 0x0F#8 = 0xAA55#16

/-- R73: the table, its sum and its exclusive-or. -/
def Obligations.TableIsTheSpecs : Prop :=
  (∀ b : U8, tableR73[b.toNat]? = some (lut b)) ∧ tableR73.length = 256 ∧
    (tableR73.map BitVec.toNat).foldl (· + ·) 0 = 0x7FFF80 ∧ tableR73.foldl (· ^^^ ·) 0#16 = 0x0000#16

/-- R72, with R71's inverse view: the laws (a) to (g). -/
def Obligations.ExpandLaws : Prop :=
  (∀ b : U8, expand b = 0xAAAA#16 - spread b) ∧
    (∀ b : U8, expand b = 0xAAAA#16 ^^^ (3#16 * spread b)) ∧
    (∀ b : U8, expand (255#8 - b) = ~~~expand b ∧ invExpand b = expand (255#8 - b)) ∧
    (∀ (b : U8) (i : Fin 8), (expand b).getLsbD (2 * i.val + 1) = !b.getLsbD i.val ∧
      (expand b).getLsbD (2 * i.val) = b.getLsbD i.val) ∧
    (∀ b b' : U8, expand b = expand b' → b = b') ∧
    (∃ e4 : BitVec 4 → U8,
      (∀ (n : BitVec 4) (i : Fin 4), (e4 n).extractLsb' (2 * i.val) 2 = if n.getLsbD i.val then 0b01#2 else 0b10#2) ∧
      ∀ b : U8, expand b = e4 (b.extractLsb' 4 4) ++ e4 (b.extractLsb' 0 4)) ∧
    (∀ b : U8, expand b &&& expand (255#8 - b) = 0#16 ∧ expand b ||| expand (255#8 - b) = 0xFFFF#16)

/-- R75: word `j` of a pixel row is the table entry of byte `j` of the row's slice, complemented when `inv`. -/
def Obligations.PixelRowWords : Prop :=
  ∀ (s : State) (y : Nat) (inv : Bool), s.cfg.wf = true → y < s.cfg.height →
    ∃ r, s.composePixelRow y inv = .ok r ∧ r.length = s.cfg.width / 8 ∧
      ∀ j, j < s.cfg.width / 8 →
        r[j]? = some (lut (if inv then 255#8 - s.fb.read (y * (s.cfg.width / 8) + j)
          else s.fb.read (y * (s.cfg.width / 8) + j)))

/-- R35 with R34: pixel `x` of row `y` lands in word `x / 8` of the row, at the pair of its bit; at `lsb0` that is bits
`2*(x mod 8)+1 : 2*(x mod 8)`; the symbol is `01` for black and `10` for white, swapped when `inv`. -/
def Obligations.PixelLandsInItsPair : Prop :=
  ∀ (s : State) (x y : Nat) (inv : Bool), s.cfg.wf = true → x < s.cfg.width → y < s.cfg.height →
    ∃ r w, s.composePixelRow y inv = .ok r ∧ r[x / 8]? = some w ∧
      w.extractLsb' (2 * pixelBit s.cfg y x) 2 = (if getpx s x y != inv then 0b01#2 else 0b10#2) ∧
      (s.cfg.fbBitOrder = .lsb0 → pixelBit s.cfg y x = x % 8) ∧
      (s.cfg.fbBitOrder = .msb0 → pixelBit s.cfg y x = 7 - x % 8)

/-- R76: every byte of a fill row is `0x55` or `0xAA`, every word `0x5555` or `0xAAAA`, under either byte order. -/
def Obligations.FillRowBytes : Prop :=
  ∀ (c : Config) (black : Bool), c.wf = true →
    rowToBytes c.rowWordOrder (composeFillRow c black) =
        List.replicate c.rowBytes (if black then 0x55#8 else 0xAA#8) ∧
      composeFillRow c black = List.replicate c.rowWords (if black then 0x5555#16 else 0xAAAA#16)

/-- R136: the table, the buffer encoding and the fill bytes are one convention: after FILL `v` every pixel row is the
fill row of `v`, and of the other colour when inverse. -/
def Obligations.TableAndConventionInLockstep : Prop :=
  ∀ (s : State) (v inv : Bool), s.cfg.wf = true → s.fb.wf = true → s.cfg.fbAttached = true →
    ∃ t, exec (.fill v) s = .next t ∧
      ∀ y, y < s.cfg.height → t.composePixelRow y inv = .ok (composeFillRow s.cfg (v != inv))

/-- R75, R97: the rows of an inverse RENDER are the word-wise complement of those of a normal one. -/
def Obligations.InverseRowIsTheComplement : Prop :=
  ∀ (s : State) (y : Nat), s.cfg.wf = true → y < s.cfg.height →
    ∃ r, s.composePixelRow y false = .ok r ∧ s.composePixelRow y true = .ok (r.map fun w => ~~~w)

/-! ### The sequencer (43_frame_driver) -/

/-- R88: the table, row by row. A row that emits nothing is always enabled; one that emits an event writes when the
transport completes the call, and waits otherwise (under its validity condition, where it has one); `S_IDLE` is left
by FLASH and RENDER only. -/
def Obligations.MicroStepTable : Prop :=
  (∀ s : State, s.running →
    (s.seq = .cycleCheck → s.cyc = 0#16 → step s = .next { s.tick with busy := false, seq := .idle }) ∧
    (s.seq = .cycleCheck → s.cyc ≠ 0#16 → step s = .next { s.tick with seq := .start }) ∧
    (s.seq = .rowCheck → s.row.toNat < s.cfg.height → step s = .next { s.tick with seq := .compose }) ∧
    (s.seq = .rowCheck → s.cfg.height ≤ s.row.toNat → step s = .next { s.tick with seq := .trail }) ∧
    (s.seq = .compose → s.mode = .fill → step s = .next { s.tick with
      scratch := composeFillRow s.cfg s.a, seq := .reorder }) ∧
    (s.seq = .compose → s.mode = .pixel → ∀ r, s.composePixelRow s.row.toNat s.a = .ok r →
      step s = .next { s.tick with scratch := r, seq := .reorder }) ∧
    (s.seq = .next → step s = .next { s.tick with phase := .idle, cyc := s.cyc - 1#16, seq := .cycleCheck })) ∧
  (∀ s : State, s.running → s.ackNow = true →
    (s.seq = .start → s.phase = .idle → step s = .next { s.tick with
      ackIn := s.ackIn.tail, trace := s.trace ++ [.startFrame], phase := .frameOpen, row := 0#13, rowsOut := 0#13,
      seq := .rowCheck }) ∧
    (s.seq = .reorder → step s = .next { s.tick with
      ackIn := s.ackIn.tail, trace := s.trace ++ [.reorder s.scratch], scratch := reorderRow s.cfg s.scratch,
      seq := .stage1 }) ∧
    (s.seq = .stage1 → (s.phase = .frameOpen ∨ s.phase = .rowEmitted) → step s = .next { s.tick with
      ackIn := s.ackIn.tail, trace := s.trace ++ [.stage s.scratch],
      seq := if s.mode = .pixel then .switch else .clock }) ∧
    (s.seq = .switch → step s = .next { s.tick with
      ackIn := s.ackIn.tail, trace := s.trace ++ [.switchBuffer], seq := .stage2 }) ∧
    (s.seq = .stage2 → step s = .next { s.tick with
      ackIn := s.ackIn.tail, trace := s.trace ++ [.stage s.scratch], seq := .clock }) ∧
    (s.seq = .clock → step s = .next { s.tick with
      ackIn := s.ackIn.tail, trace := s.trace ++ [.writeRow s.cfgRowDelay], rowsOut := s.rowsOut + 1#13,
      row := s.row + 1#13, phase := .rowEmitted, seq := .rowCheck }) ∧
    (s.seq = .trail → step s = .next { s.tick with
      ackIn := s.ackIn.tail, trace := s.trace ++ [.writeRow s.cfgRowDelay], rowsOut := s.rowsOut + 1#13,
      phase := .rowEmitted, seq := .endFrame }) ∧
    (s.seq = .endFrame → s.phase = .rowEmitted → s.cfg.height + 1 ≤ s.rowsOut.toNat → step s = .next { s.tick with
      ackIn := s.ackIn.tail, trace := s.trace ++ [.endFrame], phase := .frameClosed, seq := .next })) ∧
  (∀ s : State, s.running → s.ackNow = false → s.tReq = true → (s.seq = .start → s.phase = .idle) →
    (s.seq = .stage1 → s.phase = .frameOpen ∨ s.phase = .rowEmitted) →
    (s.seq = .endFrame → s.phase = .rowEmitted ∧ s.cfg.height + 1 ≤ s.rowsOut.toNat) →
    step s = .next { s.tick with ackIn := s.ackIn.tail }) ∧
  (∀ (s : State) (w : U32) (rest : List (Option U32)) (a : Bool) (n : U16), s.accepts w rest →
    (decode w = .instr (.flash a n) → step s = .next { s.accepted rest with
      mode := .fill, a := a, cyc := n, busy := true, seq := .cycleCheck }) ∧
    (decode w = .instr (.render a n) → s.cfg.fbAttached = true → step s = .next { s.accepted rest with
      mode := .pixel, a := a, cyc := n, busy := true, seq := .cycleCheck })) ∧
  (∀ s t : State, s.seq = .idle → step s = .next t → t.seq ≠ .idle →
    s.cmdReady = true ∧ ∃ w a n, s.cmdNow = some w ∧
      (decode w = .instr (.flash a n) ∨ decode w = .instr (.render a n)) ∧ t.seq = .cycleCheck)

/-- R110: a transport call that never returns leaves the block stuck: however many steps are taken, `BUSY = 1`, `SEQ`
stays at the emitting state, and nothing more is emitted or written. -/
def Obligations.HungTransportLeavesTheBlockStuck : Prop :=
  ∀ s : State, s.Inv → s.noReset → s.tReq = true → s.ackIn = [] → s.ackRest = false →
    ∀ k, ∃ t, run k s = .next t ∧ t.busy = true ∧ t.seq = s.seq ∧ t.trace = s.trace ∧
      t.fb = s.fb ∧ t.scratch = s.scratch ∧ t.fault = false ∧ t.over = false

/-- R88, R80: a step without reset emits at most one event, and that event is the call of its micro-state. -/
def Obligations.AtMostTheOnePendingCallIsEmitted : Prop :=
  ∀ s t : State, s.rstNow = none → step s = .next t →
    t.trace = s.trace ∨
      ∃ e, s.pendingCall = some e ∧ s.tick.ackNow = true ∧ t.trace = s.trace ++ [e] ∧ t.ackIn = s.ackIn.tail

/-- R100, R46: while a FLASH or RENDER runs, no step but a reset changes `FB`, the operands, the configuration or the
word at the port, and `CYC` only counts down, at a frame's end. -/
def Obligations.RunningCommandCannotBeDisturbed : Prop :=
  ∀ s t : State, s.seq ≠ .idle → s.rstNow = none → step s = .next t →
    t.fb = s.fb ∧ t.mode = s.mode ∧ t.a = s.a ∧ t.cfg = s.cfg ∧ t.cfgRowDelay = s.cfgRowDelay ∧
      t.cmdIn = heldCommands s.cmdIn ∧
      (t.cyc = s.cyc ∨ s.seq = .next ∧ t.phase = .idle ∧ t.seq = .cycleCheck ∧ t.cyc = s.cyc - 1#16)

/-- R14, R46, R67: outside a reset, `FB` changes only in a step that accepts CLEAR, FILL or SETPX; and no step at all
changes the configuration (00_scope section 4). -/
def Obligations.FbIsWrittenOnlyByItsCommands : Prop :=
  ∀ s t : State, step s = .next t →
    t.cfg = s.cfg ∧
      (s.rstNow = none → t.fb ≠ s.fb →
        s.seq = .idle ∧ s.cmdReady = true ∧ ∃ w, s.cmdNow = some w ∧
          (decode w = .instr .clear ∨ (∃ v, decode w = .instr (.fill v)) ∨
            ∃ v y x, decode w = .instr (.setpx v y x)))

/-- R92: where the sequencer reaches an operation its validity condition holds, so ProtocolViolation is unreachable:
no step from a state of the invariant raises it. -/
def Obligations.ProtocolViolationIsUnreachable : Prop :=
  ∀ s : State, s.Inv →
    (s.seq = .start → s.phase = .idle) ∧
    (s.seq = .stage1 → s.phase = .frameOpen ∨ s.phase = .rowEmitted) ∧
    (s.seq = .endFrame → s.phase = .rowEmitted ∧ s.rowsOut.toNat = s.cfg.height + 1) ∧
    ∃ t, step s = .next t ∧ t.fcode ≠ .protocolViolation

/-- From every state of the invariant a step answers a next state: no fault of the model, no refusal. -/
def Obligations.StepNeverStopsUnderTheInvariant : Prop :=
  ∀ s : State, s.Inv → ∃ t, step s = .next t

/-- The invariant is kept by every step, commands, micro-steps, waits and resets alike. -/
def Obligations.StepKeepsTheInvariant : Prop :=
  ∀ s t : State, s.Inv → step s = .next t → t.Inv

/-- R119, R131, R132, R133: the trace stays in the grammar, at the place the sequencer stands for. -/
def Obligations.StepKeepsTheTraceGrammar : Prop :=
  ∀ s t : State, s.Inv → s.traceOk → step s = .next t → t.traceOk

/-- R89: the frame operations append the closed form to `TRACE` and leave `PHASE = Idle`, `FB` unchanged, `SCRATCH`
the reordered last row. -/
def Obligations.FrameOperationsHaveTheClosedForm : Prop :=
  ∀ s : State, s.cfg.wf = true → s.phase = .idle →
    (∀ c, ∃ t, driveFillFrame c s = .done t ∧ t.trace = s.trace ++ fillFrame s.cfg s.cfgRowDelay c ∧
      t.phase = .idle ∧ t.fb = s.fb ∧ t.scratch = reorderRow s.cfg (fillRow s.cfg c)) ∧
    (∀ inv, ∃ t, drivePixelFrame inv s = .done t ∧ t.trace = s.trace ++ pixelFrame s.cfg s.cfgRowDelay s.fb inv ∧
      t.phase = .idle ∧ t.fb = s.fb ∧
      t.scratch = reorderRow s.cfg (pixRow s.cfg s.fb (s.cfg.height - 1) inv))

/-- R88 against R86 and R87: the micro-steps from `S_START` back to `S_CYCLE_CHECK` add up to the frame operation, and
count `CYC` down; that a step is a row of R88's table is the model's choice (log 9). -/
def Obligations.SequencerRunsTheFrameOperations : Prop :=
  ∀ s u : State, s.cfg.wf = true → s.noReset → s.callsReturn → s.seq = .start → s.phase = .idle →
    (s.mode = .fill → driveFillFrame s.a s = .done u →
      ∃ cmds, run (5 * s.cfg.height + 5) s =
        .next { u with cyc := s.cyc - 1#16, seq := .cycleCheck, cmdIn := cmds }) ∧
    (s.mode = .pixel → drivePixelFrame s.a s = .done u →
      ∃ cmds, run (7 * s.cfg.height + 5) s =
        .next { u with cyc := s.cyc - 1#16, seq := .cycleCheck, cmdIn := cmds })

/-- R90, R99: the counts of a command of `n` frames, kind by kind. -/
def Obligations.EventCounts : Prop :=
  ∀ (c : Config) (d : U32) (fb : Memory) (v : Bool) (n : Nat),
    ((repeatFrame n (fillFrame c d v)).length = n * (3 * c.height + 3) ∧
      (repeatFrame n (fillFrame c d v)).countP Event.isStart = n ∧
      (repeatFrame n (fillFrame c d v)).countP Event.isEnd = n ∧
      (repeatFrame n (fillFrame c d v)).countP Event.isReorder = n * c.height ∧
      (repeatFrame n (fillFrame c d v)).countP Event.isStage = n * c.height ∧
      (repeatFrame n (fillFrame c d v)).countP Event.isSwitch = 0 ∧
      (repeatFrame n (fillFrame c d v)).countP Event.isWrite = n * (c.height + 1)) ∧
    ((repeatFrame n (pixelFrame c d fb v)).length = n * (5 * c.height + 3) ∧
      (repeatFrame n (pixelFrame c d fb v)).countP Event.isStart = n ∧
      (repeatFrame n (pixelFrame c d fb v)).countP Event.isEnd = n ∧
      (repeatFrame n (pixelFrame c d fb v)).countP Event.isReorder = n * c.height ∧
      (repeatFrame n (pixelFrame c d fb v)).countP Event.isStage = 2 * n * c.height ∧
      (repeatFrame n (pixelFrame c d fb v)).countP Event.isSwitch = n * c.height ∧
      (repeatFrame n (pixelFrame c d fb v)).countP Event.isWrite = n * (c.height + 1))

/-! ### FLASH and RENDER (44_cycle_controller) -/

/-- R88's acceptance row, R96: what FLASH writes in the step that accepts it, and nothing else. -/
def Obligations.FlashLatchesItsOperands : Prop :=
  ∀ (s : State) (a : Bool) (n : U16), s.cfg.wf = true →
    exec (.flash a n) s = .next { s with mode := .fill, a := a, cyc := n, busy := true, seq := .cycleCheck }

/-- R88's acceptance row, R97: the same for RENDER, after the `FB_LEN` check. -/
def Obligations.RenderLatchesItsOperands : Prop :=
  ∀ (s : State) (a : Bool) (n : U16), s.cfg.wf = true →
    (s.cfg.fbAttached = true →
      exec (.render a n) s = .next { s with mode := .pixel, a := a, cyc := n, busy := true, seq := .cycleCheck }) ∧
    (s.cfg.fbAttached = false → exec (.render a n) s = .next (s.raise .bufferSizeMismatch (encode (.render a n))))

/-- Derived from R96, R88, R137: an accepted FLASH, run on to the end with every transport call returning, drives
exactly `N` fill frames of its colour and leaves `FB` alone. The number of steps is that of R88's micro-steps, one a
step: THE MODEL'S CHOICE (log 9, DESIGN CHOICE), not R96's. -/
def Obligations.FlashRunsToItsEnd : Prop :=
  ∀ (s : State) (a : Bool) (n : U16), s.cfg.wf = true → s.noReset → s.callsReturn → s.phase = .idle →
    ∃ t u, exec (.flash a n) s = .next t ∧ t.busy = true ∧
      run (n.toNat * fillFrameSteps s.cfg.height + 1) t = .next u ∧
      u.trace = s.trace ++ repeatFrame n.toNat (fillFrame s.cfg s.cfgRowDelay a) ∧
      u.busy = false ∧ u.seq = .idle ∧ u.phase = .idle ∧ u.cyc = 0#16 ∧ u.fb = s.fb ∧ u.cfg = s.cfg ∧
      u.fault = s.fault ∧ u.fcode = s.fcode ∧ u.finfo = s.finfo ∧ u.mode = .fill ∧ u.a = a ∧
      u.cfgRowDelay = s.cfgRowDelay

/-- Derived from R97, R88, R137: an accepted RENDER, run on to the end with every transport call returning, drives
exactly `N` pixel frames of the one `FB`, which it leaves alone; on a malformed attachment it raises
BufferSizeMismatch instead, with no event. The number of steps is that of R88's micro-steps, one a step: THE MODEL'S
CHOICE (log 9, DESIGN CHOICE), not R97's. -/
def Obligations.RenderRunsToItsEnd : Prop :=
  ∀ (s : State) (a : Bool) (n : U16), s.cfg.wf = true → s.noReset → s.callsReturn → s.phase = .idle →
    (s.cfg.fbAttached = true →
      ∃ t u, exec (.render a n) s = .next t ∧ t.busy = true ∧
        run (n.toNat * pixelFrameSteps s.cfg.height + 1) t = .next u ∧
        u.trace = s.trace ++ repeatFrame n.toNat (pixelFrame s.cfg s.cfgRowDelay s.fb a) ∧
        u.busy = false ∧ u.seq = .idle ∧ u.phase = .idle ∧ u.cyc = 0#16 ∧ u.fb = s.fb ∧ u.cfg = s.cfg ∧
        u.fault = s.fault ∧ u.fcode = s.fcode ∧ u.finfo = s.finfo ∧ u.mode = .pixel ∧ u.a = a ∧
        u.cfgRowDelay = s.cfgRowDelay) ∧
    (s.cfg.fbAttached = false →
      exec (.render a n) s = .next (s.raise .bufferSizeMismatch (encode (.render a n))))

/-- R98: with `N = 0` the command is accepted, `BUSY` rises and falls in the next step, nothing is emitted, whatever
the transport does; the RENDER form still makes its check. -/
def Obligations.ZeroCyclesDriveNothing : Prop :=
  ∀ (s : State) (a : Bool), s.cfg.wf = true → s.rstNow = none → s.inReset = false →
    (∃ t u, exec (.flash a 0#16) s = .next t ∧ t.busy = true ∧ step t = .next u ∧ u.busy = false ∧ u.seq = .idle ∧
      u.trace = s.trace ∧ u.fb = s.fb ∧ u.phase = s.phase) ∧
    (s.cfg.fbAttached = true →
      ∃ t u, exec (.render a 0#16) s = .next t ∧ t.busy = true ∧ step t = .next u ∧ u.busy = false ∧
        u.seq = .idle ∧ u.trace = s.trace ∧ u.fb = s.fb ∧ u.phase = s.phase) ∧
    (s.cfg.fbAttached = false →
      ∃ t, exec (.render a 0#16) s = .next t ∧ t.fcode = .bufferSizeMismatch ∧ t.trace = s.trace)

/-- R137, R110: every FLASH and RENDER ends after finitely many steps provided every transport call returns, whatever calls
wait before they do. -/
def Obligations.RunningCommandEnds : Prop :=
  ∀ s : State, s.Inv → s.noReset → s.busy = true → s.ackRest = true →
    ∃ k t, run k s = .next t ∧ t.busy = false ∧ t.seq = .idle ∧ t.phase = .idle ∧
      t.fault = false ∧ t.fb = s.fb

/-- R76, R86, R96: FLASH neither reads nor writes `FB`: with another `FB` the step is the same, `FB` apart. -/
def Obligations.FlashIsIndependentOfFb : Prop :=
  ∀ (s t : State) (m : Memory), s.mode = .fill → s.seq ≠ .idle → s.rstNow = none → step s = .next t →
    step { s with fb := m } = .next { t with fb := m }

/-- R34: `FB_BIT_ORDER` does not change the trace of a RENDER for given buffer bytes, nor any other state. -/
def Obligations.BitOrderDoesNotReachTheSequencer : Prop :=
  ∀ (s t : State) (o : BitOrder), s.seq ≠ .idle → s.rstNow = none → step s = .next t →
    step { s with cfg := { s.cfg with fbBitOrder := o } } = .next { t with cfg := { t.cfg with fbBitOrder := o } }

/-- R116, R118, R120: a staging copy is the whole row, `ROW_BYTES` bytes, a reorder call is given `ROW_WORDS` words,
and no call of the block is a lifecycle call. -/
def Obligations.TransportCallsCarryWholeRows : Prop :=
  ∀ (s : State) (e : Event), s.Inv → s.pendingCall = some e →
    (∀ r, e = .stage r → (Event.slotBytes s.cfg.rowWordOrder e).length = s.cfg.rowBytes) ∧
    (∀ r, e = .reorder r → r.length = s.cfg.rowWords) ∧
    (∀ d, e = .writeRow d → d = s.cfg.rowDelay) ∧
    (∀ sel, e.transportCall ≠ .init sel) ∧ e.transportCall ≠ .powerOn ∧ e.transportCall ≠ .powerOff ∧
      e.transportCall ≠ .deinit

/-! ### The end of a run (70_reset R138) -/

/-- R138: a run starts from the reset state with its words at the port; after `k` steps its result is the triple
exactly when it is over, and nothing when it is not; a run that is over stays over with its result, so that it has at
most one. That a later reset is no part of a run is the model's reading (log 25). -/
def Obligations.RunHasAResultExactlyWhenOver : Prop :=
  ∀ r : Run, r.cfg.wf = true →
    r.after 0 = .next { State.powerOn r.cfg r.image with
      cmdIn := r.presented, ackIn := r.acks, ackRest := r.ackRest } ∧
    (∀ k t, r.after k = .next t →
      (r.resultAt k = some (t.fb, t.trace, t.statusWord) ↔
        (∀ w, some w ∉ t.cmdIn) ∧ t.busy = false ∧ t.seq = .idle ∧ t.phase = .idle) ∧
      (r.resultAt k = none ↔
        ¬((∀ w, some w ∉ t.cmdIn) ∧ t.busy = false ∧ t.seq = .idle ∧ t.phase = .idle)) ∧
      (t.endedWell = true ↔ r.resultAt k ≠ none ∧ t.fault = false)) ∧
    (∀ j k x, r.resultAt j = some x → j ≤ k → r.resultAt k = some x) ∧
    ∀ x y, r.HasResult x → r.HasResult y → x = y

/-- R138, R109, R110: with `FAULT = 1` and a word left, or with a transport call that never returns, a run has no
result, however long it runs, and a word left then is never accepted. -/
def Obligations.NeverAcceptedWordLeavesNoResult : Prop :=
  ∀ (r : Run) (j : Nat) (s : State), r.cfg.wf = true → r.after j = .next s →
    ((s.fault = true ∧ ∃ w, some w ∈ s.cmdIn) ∨ (s.tReq = true ∧ s.ackIn = [] ∧ s.ackRest = false)) →
    (∀ k, j ≤ k → ∃ t, r.after k = .next t ∧ t.over = false ∧ ∀ w, some w ∈ s.cmdIn → some w ∈ t.cmdIn) ∧
    ∀ x, ¬r.HasResult x

/-- R138, R137: a run of legal words, each on the panel, over a well-formed attachment ends well and has a result,
provided every transport call returns, whatever steps pass in which nothing is presented or a call waits. -/
def Obligations.RunOfLegalWordsEndsWell : Prop :=
  ∀ r : Run, r.cfg.wf = true → r.cfg.fbAttached = true → r.ackRest = true →
    (∀ w, w ∈ r.words → ∃ i, decode w = .instr i ∧ i.onPanel r.cfg = true) →
    r.EndsWell ∧ ∃ x, r.HasResult x
end

