-- ==== Sys2Proof/Laws/Memory.lean ====
section
/-! SUPPORT. The laws of `FB` as data: read after write, what a write leaves alone, the canonical form, and that
canonical memories that read alike are equal. -/

namespace Sys2Proof.Machine.Memory

@[simp] theorem read_nil (a : Nat) : Memory.read [] a = unlisted := rfl

theorem read_cell (k a : Nat) (b : U8) (m : Memory) (h : k = a → read m a = unlisted ∨ b ≠ unlisted) :
    read (cell k b m) a = if k = a then b else read m a := by
  unfold cell
  by_cases hb : b = unlisted
  · by_cases hk : k = a
    · rcases h hk with h | h
      · simp [hb, hk, h]
      · exact absurd hb h
    · simp [hb, hk]
  · simp [hb, read]

/-- Below the first listed offset of a canonical memory everything is unlisted. -/
theorem read_of_lt {m : Memory} {lo a : Nat} (h : wfFrom lo m = true) (ha : a < lo) : read m a = unlisted := by
  induction m generalizing lo with
  | nil => rfl
  | cons c m ih =>
    obtain ⟨k, v⟩ := c
    simp only [wfFrom, Bool.and_eq_true, decide_eq_true_eq] at h
    have hk : k ≠ a := by omega
    simp only [read, hk, if_false]
    exact ih h.2 (by omega)

theorem wfFrom_mono {m : Memory} {lo lo' : Nat} (h : wfFrom lo m = true) (hl : lo' ≤ lo) : wfFrom lo' m = true := by
  cases m with
  | nil => rfl
  | cons c m =>
    obtain ⟨k, v⟩ := c
    simp only [wfFrom, Bool.and_eq_true, decide_eq_true_eq] at h ⊢
    exact ⟨⟨by omega, h.1.2⟩, h.2⟩

theorem wfFrom_cell {m : Memory} {lo a : Nat} (b : U8) (h : wfFrom (a + 1) m = true) (ha : lo ≤ a) :
    wfFrom lo (cell a b m) = true := by
  unfold cell
  split
  · exact wfFrom_mono h (by omega)
  · rename_i hb
    simp [wfFrom, h, ha, hb]

theorem wfFrom_write {m : Memory} {lo a : Nat} (b : U8) (h : wfFrom lo m = true) (ha : lo ≤ a) :
    wfFrom lo (write m a b) = true := by
  induction m generalizing lo with
  | nil => exact wfFrom_cell b rfl ha
  | cons c m ih =>
    obtain ⟨k, v⟩ := c
    have hw := h
    simp only [wfFrom, Bool.and_eq_true, decide_eq_true_eq] at h
    simp only [write]
    split
    · exact wfFrom_cell b (by simp [wfFrom, h.2, h.1.2]; omega) ha
    · split
      · rename_i e
        subst e
        exact wfFrom_cell b h.2 ha
      · simp only [wfFrom, Bool.and_eq_true, decide_eq_true_eq]
        exact ⟨h.1, ih h.2 (by omega)⟩

/-- A write keeps the canonical form. -/
theorem wf_write {m : Memory} (a : Nat) (b : U8) (h : wf m = true) : wf (write m a b) = true :=
  wfFrom_write b h (Nat.zero_le a)

/-- What a canonical memory reads after a write: the byte written there, the old byte elsewhere. -/
theorem read_write_from {m : Memory} {lo : Nat} (h : wfFrom lo m = true) (a : Nat) (b : U8) (x : Nat) :
    read (write m a b) x = if a = x then b else read m x := by
  induction m generalizing lo with
  | nil => exact read_cell a x b [] (fun _ => Or.inl rfl)
  | cons c m ih =>
    obtain ⟨k, v⟩ := c
    have hw := h
    simp only [wfFrom, Bool.and_eq_true, decide_eq_true_eq] at h
    simp only [write]
    split
    · rename_i hak
      refine read_cell a x b _ (fun e => Or.inl ?_)
      subst e
      have hk : k ≠ a := by omega
      simp only [read, hk, if_false]
      exact read_of_lt h.2 (by omega)
    · split
      · rename_i e
        subst e
        rw [read_cell a x b m (fun e => Or.inl (by subst e; exact read_of_lt h.2 (by omega)))]
        simp only [read]
        split <;> rfl
      · rename_i hne
        simp only [read, ih h.2]
        by_cases hkx : k = x
        · have hax : a ≠ x := by omega
          simp [hkx, hax]
        · simp [hkx]

theorem read_write {m : Memory} (h : wf m = true) (a : Nat) (b : U8) (x : Nat) :
    read (write m a b) x = if a = x then b else read m x := read_write_from h a b x

theorem read_write_same {m : Memory} (h : wf m = true) (a : Nat) (b : U8) : read (write m a b) a = b := by
  simp [read_write h]

theorem read_write_other {m : Memory} (h : wf m = true) {a x : Nat} (b : U8) (hx : a ≠ x) :
    read (write m a b) x = read m x := by
  simp [read_write h, hx]

theorem below_cell {n a : Nat} (b : U8) {m : Memory} (h : below n m = true) (ha : a < n) :
    below n (cell a b m) = true := by
  unfold cell
  split
  · exact h
  · simpa [below, ha] using h

/-- A write below `n` leaves every listed offset below `n`. -/
theorem below_write {n a : Nat} (b : U8) {m : Memory} (h : below n m = true) (ha : a < n) :
    below n (write m a b) = true := by
  induction m with
  | nil => exact below_cell b rfl ha
  | cons c m ih =>
    obtain ⟨k, v⟩ := c
    have hm : below n m = true := by simp only [below, List.all_cons, Bool.and_eq_true] at h; exact h.2
    simp only [write]
    split
    · exact below_cell b h ha
    · split
      · exact below_cell b hm ha
      · simp only [below, List.all_cons, Bool.and_eq_true] at h ⊢
        exact ⟨h.1, ih hm⟩

/-- Beyond every listed offset a read answers the unlisted byte. -/
theorem read_of_below {n a : Nat} {m : Memory} (h : below n m = true) (ha : n ≤ a) : read m a = unlisted := by
  induction m with
  | nil => rfl
  | cons c m ih =>
    obtain ⟨k, v⟩ := c
    simp only [below, List.all_cons, Bool.and_eq_true, decide_eq_true_eq] at h
    have hk : k ≠ a := by omega
    simp only [read, hk, if_false]
    exact ih h.2

theorem wf_fill {m : Memory} (b : U8) (n : Nat) (h : wf m = true) : wf (fill m b n) = true := by
  induction n with
  | zero => exact h
  | succ n ih => exact wf_write n b ih

theorem read_fill {m : Memory} (b : U8) (n : Nat) (h : wf m = true) (x : Nat) :
    read (fill m b n) x = if x < n then b else read m x := by
  induction n with
  | zero => simp [fill]
  | succ n ih =>
    simp only [fill, read_write (wf_fill b n h), ih]
    by_cases hx : n = x
    · simp [hx]
    · have : x < n + 1 ↔ x < n := by omega
      simp [hx, this]

theorem below_fill {m : Memory} (b : U8) {n N : Nat} (h : below N m = true) (hn : n ≤ N) :
    below N (fill m b n) = true := by
  induction n with
  | zero => exact h
  | succ n ih => exact below_write b (ih (by omega)) (by omega)

theorem wf_load (bytes : List U8) (n : Nat) : wf (load bytes n) = true := by
  induction n with
  | zero => rfl
  | succ n ih => exact wf_write n _ ih

theorem read_load (bytes : List U8) (n x : Nat) :
    read (load bytes n) x = if x < n then bytes.getD x unlisted else unlisted := by
  induction n with
  | zero => simp [load]
  | succ n ih =>
    simp only [load, read_write (wf_load bytes n), ih]
    by_cases hx : n = x
    · simp [hx]
    · have : x < n + 1 ↔ x < n := by omega
      simp [hx, this]

theorem below_load (bytes : List U8) {n N : Nat} (hn : n ≤ N) : below N (load bytes n) = true := by
  induction n with
  | zero => rfl
  | succ n ih => exact below_write _ (ih (by omega)) (by omega)

theorem cons_of_read_ne {lo : Nat} {m : Memory} (h : wfFrom lo m = true) {a : Nat} (ha : read m a ≠ unlisted) :
    lo ≤ a := by
  rcases Nat.lt_or_ge a lo with hl | hl
  · exact absurd (read_of_lt h hl) ha
  · exact hl

/-- Canonical memories that read alike at every offset are equal data. -/
theorem ext_from {m m' : Memory} {lo : Nat} (h : wfFrom lo m = true) (h' : wfFrom lo m' = true)
    (hr : ∀ a, read m a = read m' a) : m = m' := by
  induction m generalizing lo m' with
  | nil =>
    cases m' with
    | nil => rfl
    | cons c m' =>
      obtain ⟨k, v⟩ := c
      simp only [wfFrom, Bool.and_eq_true, decide_eq_true_eq] at h'
      exact absurd (by simpa [read] using (hr k).symm) h'.1.2
  | cons c m ih =>
    obtain ⟨k, v⟩ := c
    have hk := hr k
    simp only [wfFrom, Bool.and_eq_true, decide_eq_true_eq] at h
    cases m' with
    | nil => exact absurd (by simpa [read] using hk) h.1.2
    | cons c' m' =>
      obtain ⟨k', v'⟩ := c'
      have hw' := h'
      simp only [wfFrom, Bool.and_eq_true, decide_eq_true_eq] at h'
      have hk' := hr k'
      have e : k = k' := by
        rcases Nat.lt_trichotomy k k' with hlt | heq | hgt
        · have : read m' k = unlisted := read_of_lt h'.2 (by omega)
          have hne : k' ≠ k := by omega
          simp only [read, if_true, hne, if_false, this] at hk
          exact absurd hk h.1.2
        · exact heq
        · have : read m k' = unlisted := read_of_lt h.2 (by omega)
          have hne : k ≠ k' := by omega
          simp only [read, if_true, hne, if_false, this] at hk'
          exact absurd hk'.symm h'.1.2
      subst e
      have ev : v = v' := by simpa [read] using hk
      subst ev
      have : m = m' := by
        refine ih h.2 h'.2 fun a => ?_
        by_cases ha : k = a
        · subst ha
          rw [read_of_lt h.2 (by omega), read_of_lt h'.2 (by omega)]
        · have := hr a
          simpa [read, ha] using this
      rw [this]

theorem ext_read {m m' : Memory} (h : wf m = true) (h' : wf m' = true) (hr : ∀ a, read m a = read m' a) : m = m' :=
  ext_from h h' hr

end Sys2Proof.Machine.Memory
end

