-- ==== Sys2Proof/Laws/Operands.lean ====
section
/-! SUPPORT. The geometry of an admitted configuration (00_scope R7), the addresses of pixels and row slices, the
bit that SETPX sets, and the bits of EXPAND. -/

namespace Sys2Proof.Config

theorem wf_iff (c : Config) :
    c.wf = true ↔ c.width % 8 = 0 ∧ 8 ≤ c.width ∧ c.width ≤ 4096 ∧ 1 ≤ c.height ∧ c.height ≤ 4096 := by
  simp [wf, and_assoc]

/-- `W` is eight times the bytes of a row, so every quantity of R6 is a multiple of it. -/
theorem width_eq {c : Config} (h : c.wf = true) : c.width = 8 * c.fbRowBytes := by
  have := (wf_iff c).1 h
  simp only [fbRowBytes]; omega

theorem rowWords_eq {c : Config} (h : c.wf = true) : c.rowWords = c.fbRowBytes := by
  have := (wf_iff c).1 h
  simp only [rowWords, rowBytes, fbRowBytes]; omega

theorem rowBytes_eq {c : Config} (h : c.wf = true) : c.rowBytes = 2 * c.rowWords := by
  have := (wf_iff c).1 h
  simp only [rowWords, rowBytes]; omega

theorem fbBytes_eq {c : Config} (h : c.wf = true) : c.fbBytes = c.height * c.fbRowBytes := by
  have hw := width_eq h
  simp only [fbBytes, hw]
  rw [Nat.mul_assoc, Nat.mul_comm c.fbRowBytes c.height]
  omega

theorem height_pos {c : Config} (h : c.wf = true) : 1 ≤ c.height := ((wf_iff c).1 h).2.2.2.1

theorem height_le {c : Config} (h : c.wf = true) : c.height ≤ 4096 := ((wf_iff c).1 h).2.2.2.2

theorem fbRowBytes_pos {c : Config} (h : c.wf = true) : 1 ≤ c.fbRowBytes := by
  have := (wf_iff c).1 h
  simp only [fbRowBytes]; omega

end Sys2Proof.Config

namespace Sys2Proof.Machine

/-- The slice of a row on the panel lies in `FB` (42_row_compositor R75). -/
theorem rowBase_le {c : Config} (h : c.wf = true) {y : Nat} (hy : y < c.height) :
    rowBase c y + c.fbRowBytes ≤ c.fbBytes := by
  rw [Config.fbBytes_eq h, rowBase, ← Nat.succ_mul]
  exact Nat.mul_le_mul_right _ hy

/-- "`a = Y*FB_ROW_BYTES + X/8`" (40_pixel_buffer R63). -/
theorem pixelByte_eq {c : Config} (h : c.wf = true) (y x : Nat) : pixelByte c y x = rowBase c y + x / 8 := by
  have hw := Config.width_eq h
  simp only [pixelByte, pixelIndex, rowBase]
  rw [hw, Nat.mul_left_comm]
  omega

/-- "`index mod 8 = X mod 8`" (40_pixel_buffer R63). -/
theorem pixelIndex_mod {c : Config} (h : c.wf = true) (y x : Nat) : pixelIndex c y x % 8 = x % 8 := by
  have hw := Config.width_eq h
  simp only [pixelIndex]
  rw [hw, Nat.mul_left_comm]
  omega

theorem pixelByte_lt {c : Config} (h : c.wf = true) {y x : Nat} (hx : x < c.width) (hy : y < c.height) :
    pixelByte c y x < c.fbBytes := by
  have hw := Config.width_eq h
  have := rowBase_le h hy
  rw [pixelByte_eq h]
  omega

theorem pixelBit_lt (c : Config) (y x : Nat) : pixelBit c y x < 8 := by
  unfold pixelBit
  split <;> omega

/-- A pixel on the panel is alone at its bit of `FB` (40_pixel_buffer R66 h). -/
theorem pixel_address_injective {c : Config} (h : c.wf = true) {y x y' x' : Nat}
    (hx : x < c.width) (hx' : x' < c.width) (ha : pixelByte c y x = pixelByte c y' x')
    (hk : pixelBit c y x = pixelBit c y' x') : x = x' ∧ y = y' := by
  have hk' : x % 8 = x' % 8 := by
    have e := pixelIndex_mod h y x
    have e' := pixelIndex_mod h y' x'
    unfold pixelBit at hk
    split at hk <;> omega
  have hw := Config.width_eq h
  rw [pixelByte_eq h, pixelByte_eq h] at ha
  simp only [rowBase] at ha
  have hlt : x / 8 < c.fbRowBytes := by omega
  have hlt' : x' / 8 < c.fbRowBytes := by omega
  have hy : y = y' := by
    have h1 := congrArg (· / c.fbRowBytes) ha
    have hpos : 0 < c.fbRowBytes := by omega
    simpa [Nat.mul_comm y, Nat.mul_comm y', Nat.mul_add_div hpos, Nat.div_eq_of_lt hlt,
      Nat.div_eq_of_lt hlt'] using h1
  subst hy
  omega

/-- The byte that SETPX stores: bit `k` is the new value, the others are as they were. -/
theorem withBit_getLsbD (old : U8) (k : Nat) (v : Bool) (hk : k < 8) (j : Nat) (hj : j < 8) :
    (withBit old k v).getLsbD j = if j = k then v else old.getLsbD j := by
  have hv : ∀ v : Bool, (BitVec.ofBool v).setWidth 8 = if v then 1#8 else 0#8 := by decide
  unfold withBit
  rw [hv]
  have hk8 : k = 0 ∨ k = 1 ∨ k = 2 ∨ k = 3 ∨ k = 4 ∨ k = 5 ∨ k = 6 ∨ k = 7 := by omega
  have hj8 : j = 0 ∨ j = 1 ∨ j = 2 ∨ j = 3 ∨ j = 4 ∨ j = 5 ∨ j = 6 ∨ j = 7 := by omega
  rcases hk8 with rfl | rfl | rfl | rfl | rfl | rfl | rfl | rfl <;>
    rcases hj8 with rfl | rfl | rfl | rfl | rfl | rfl | rfl | rfl <;> cases v <;> simp

/-- Setting a bit to the value it has changes nothing (40_pixel_buffer R63). -/
theorem withBit_self (old : U8) (k : Nat) (hk : k < 8) : withBit old k (old.getLsbD k) = old := by
  apply BitVec.eq_of_getLsbD_eq
  intro j hj
  rw [withBit_getLsbD old k _ hk j hj]
  split
  · rename_i e; rw [e]
  · rfl

/-- The pattern's even bits are the byte, its odd bits the complement (41_expand_table R72 d). -/
theorem expand_bits : ∀ b : U8, ∀ i : Fin 8,
    (expand b).getLsbD (2 * i.val) = b.getLsbD i.val ∧ (expand b).getLsbD (2 * i.val + 1) = !b.getLsbD i.val := by
  decide

/-- "`255 - b = ~b` on 8 bits" (41_expand_table R71). -/
theorem complement_eq (b : U8) : 255#8 - b = ~~~b := by
  revert b; decide

theorem wordBytes_bytesWord (o : ByteOrder) (b0 b1 : U8) : wordBytes o (bytesWord o b0 b1) = [b0, b1] := by
  cases o
  · simp only [wordBytes, bytesWord, List.cons.injEq, and_true]
    exact ⟨BitVec.extractLsb'_append_eq_right, BitVec.extractLsb'_append_eq_left⟩
  · simp only [wordBytes, bytesWord, List.cons.injEq, and_true]
    exact ⟨BitVec.extractLsb'_append_eq_left, BitVec.extractLsb'_append_eq_right⟩

theorem wordBytes_length (o : ByteOrder) (w : U16) : (wordBytes o w).length = 2 := by cases o <;> rfl

/-- A row of words is twice as many bytes (20_memory R36). -/
theorem rowToBytes_length (o : ByteOrder) (r : Row) : (rowToBytes o r).length = 2 * r.length := by
  induction r with
  | nil => rfl
  | cons w r ih =>
    simp only [rowToBytes, List.flatMap_cons, List.length_append, wordBytes_length, List.length_cons] at ih ⊢
    omega

end Sys2Proof.Machine
end

