-- ==== Sys2Proof/Laws/State.lean ====
section
/-! SUPPORT. One lemma per field per named update of State, each true by rfl. -/

namespace Sys2Proof.Machine.State

/-! ### `fbFill`: every byte of `FB` written -/

@[simp] theorem fbFill_fb (b : U8) (s : State) : (s.fbFill b).fb = s.fb.fill b s.cfg.fbBytes := rfl
@[simp] theorem fbFill_scratch (b : U8) (s : State) : (s.fbFill b).scratch = s.scratch := rfl
@[simp] theorem fbFill_phase (b : U8) (s : State) : (s.fbFill b).phase = s.phase := rfl
@[simp] theorem fbFill_seq (b : U8) (s : State) : (s.fbFill b).seq = s.seq := rfl
@[simp] theorem fbFill_mode (b : U8) (s : State) : (s.fbFill b).mode = s.mode := rfl
@[simp] theorem fbFill_a (b : U8) (s : State) : (s.fbFill b).a = s.a := rfl
@[simp] theorem fbFill_cyc (b : U8) (s : State) : (s.fbFill b).cyc = s.cyc := rfl
@[simp] theorem fbFill_row (b : U8) (s : State) : (s.fbFill b).row = s.row := rfl
@[simp] theorem fbFill_rowsOut (b : U8) (s : State) : (s.fbFill b).rowsOut = s.rowsOut := rfl
@[simp] theorem fbFill_busy (b : U8) (s : State) : (s.fbFill b).busy = s.busy := rfl
@[simp] theorem fbFill_fault (b : U8) (s : State) : (s.fbFill b).fault = s.fault := rfl
@[simp] theorem fbFill_fcode (b : U8) (s : State) : (s.fbFill b).fcode = s.fcode := rfl
@[simp] theorem fbFill_finfo (b : U8) (s : State) : (s.fbFill b).finfo = s.finfo := rfl
@[simp] theorem fbFill_cfgRowDelay (b : U8) (s : State) : (s.fbFill b).cfgRowDelay = s.cfgRowDelay := rfl
@[simp] theorem fbFill_trace (b : U8) (s : State) : (s.fbFill b).trace = s.trace := rfl
@[simp] theorem fbFill_cfg (b : U8) (s : State) : (s.fbFill b).cfg = s.cfg := rfl
@[simp] theorem fbFill_cmdIn (b : U8) (s : State) : (s.fbFill b).cmdIn = s.cmdIn := rfl
@[simp] theorem fbFill_rstIn (b : U8) (s : State) : (s.fbFill b).rstIn = s.rstIn := rfl
@[simp] theorem fbFill_inReset (b : U8) (s : State) : (s.fbFill b).inReset = s.inReset := rfl
@[simp] theorem fbFill_ackIn (b : U8) (s : State) : (s.fbFill b).ackIn = s.ackIn := rfl
@[simp] theorem fbFill_ackRest (b : U8) (s : State) : (s.fbFill b).ackRest = s.ackRest := rfl

/-! ### `raise`: taking a fault (60_exceptions R106) -/

@[simp] theorem raise_fb (f : FaultCode) (w : U32) (s : State) : (s.raise f w).fb = s.fb := rfl
@[simp] theorem raise_scratch (f : FaultCode) (w : U32) (s : State) : (s.raise f w).scratch = s.scratch := rfl
@[simp] theorem raise_phase (f : FaultCode) (w : U32) (s : State) : (s.raise f w).phase = s.phase := rfl
@[simp] theorem raise_seq (f : FaultCode) (w : U32) (s : State) : (s.raise f w).seq = .idle := rfl
@[simp] theorem raise_mode (f : FaultCode) (w : U32) (s : State) : (s.raise f w).mode = s.mode := rfl
@[simp] theorem raise_a (f : FaultCode) (w : U32) (s : State) : (s.raise f w).a = s.a := rfl
@[simp] theorem raise_cyc (f : FaultCode) (w : U32) (s : State) : (s.raise f w).cyc = s.cyc := rfl
@[simp] theorem raise_row (f : FaultCode) (w : U32) (s : State) : (s.raise f w).row = s.row := rfl
@[simp] theorem raise_rowsOut (f : FaultCode) (w : U32) (s : State) : (s.raise f w).rowsOut = s.rowsOut := rfl
@[simp] theorem raise_busy (f : FaultCode) (w : U32) (s : State) : (s.raise f w).busy = false := rfl
@[simp] theorem raise_fault (f : FaultCode) (w : U32) (s : State) : (s.raise f w).fault = true := rfl
@[simp] theorem raise_fcode (f : FaultCode) (w : U32) (s : State) : (s.raise f w).fcode = f := rfl
@[simp] theorem raise_finfo (f : FaultCode) (w : U32) (s : State) : (s.raise f w).finfo = w := rfl
@[simp] theorem raise_cfgRowDelay (f : FaultCode) (w : U32) (s : State) : (s.raise f w).cfgRowDelay = s.cfgRowDelay := rfl
@[simp] theorem raise_trace (f : FaultCode) (w : U32) (s : State) : (s.raise f w).trace = s.trace := rfl
@[simp] theorem raise_cfg (f : FaultCode) (w : U32) (s : State) : (s.raise f w).cfg = s.cfg := rfl
@[simp] theorem raise_cmdIn (f : FaultCode) (w : U32) (s : State) : (s.raise f w).cmdIn = s.cmdIn := rfl
@[simp] theorem raise_rstIn (f : FaultCode) (w : U32) (s : State) : (s.raise f w).rstIn = s.rstIn := rfl
@[simp] theorem raise_inReset (f : FaultCode) (w : U32) (s : State) : (s.raise f w).inReset = s.inReset := rfl
@[simp] theorem raise_ackIn (f : FaultCode) (w : U32) (s : State) : (s.raise f w).ackIn = s.ackIn := rfl
@[simp] theorem raise_ackRest (f : FaultCode) (w : U32) (s : State) : (s.raise f w).ackRest = s.ackRest := rfl

/-! ### `ackTaken`: `t_ack` looked at -/

@[simp] theorem ackTaken_fb (s : State) : (s.ackTaken).fb = s.fb := rfl
@[simp] theorem ackTaken_scratch (s : State) : (s.ackTaken).scratch = s.scratch := rfl
@[simp] theorem ackTaken_phase (s : State) : (s.ackTaken).phase = s.phase := rfl
@[simp] theorem ackTaken_seq (s : State) : (s.ackTaken).seq = s.seq := rfl
@[simp] theorem ackTaken_mode (s : State) : (s.ackTaken).mode = s.mode := rfl
@[simp] theorem ackTaken_a (s : State) : (s.ackTaken).a = s.a := rfl
@[simp] theorem ackTaken_cyc (s : State) : (s.ackTaken).cyc = s.cyc := rfl
@[simp] theorem ackTaken_row (s : State) : (s.ackTaken).row = s.row := rfl
@[simp] theorem ackTaken_rowsOut (s : State) : (s.ackTaken).rowsOut = s.rowsOut := rfl
@[simp] theorem ackTaken_busy (s : State) : (s.ackTaken).busy = s.busy := rfl
@[simp] theorem ackTaken_fault (s : State) : (s.ackTaken).fault = s.fault := rfl
@[simp] theorem ackTaken_fcode (s : State) : (s.ackTaken).fcode = s.fcode := rfl
@[simp] theorem ackTaken_finfo (s : State) : (s.ackTaken).finfo = s.finfo := rfl
@[simp] theorem ackTaken_cfgRowDelay (s : State) : (s.ackTaken).cfgRowDelay = s.cfgRowDelay := rfl
@[simp] theorem ackTaken_trace (s : State) : (s.ackTaken).trace = s.trace := rfl
@[simp] theorem ackTaken_cfg (s : State) : (s.ackTaken).cfg = s.cfg := rfl
@[simp] theorem ackTaken_cmdIn (s : State) : (s.ackTaken).cmdIn = s.cmdIn := rfl
@[simp] theorem ackTaken_rstIn (s : State) : (s.ackTaken).rstIn = s.rstIn := rfl
@[simp] theorem ackTaken_inReset (s : State) : (s.ackTaken).inReset = s.inReset := rfl
@[simp] theorem ackTaken_ackIn (s : State) : (s.ackTaken).ackIn = s.ackIn.tail := rfl
@[simp] theorem ackTaken_ackRest (s : State) : (s.ackTaken).ackRest = s.ackRest := rfl

/-! ### `emit`: an event appended -/

@[simp] theorem emit_fb (e : Event) (s : State) : (s.emit e).fb = s.fb := rfl
@[simp] theorem emit_scratch (e : Event) (s : State) : (s.emit e).scratch = s.scratch := rfl
@[simp] theorem emit_phase (e : Event) (s : State) : (s.emit e).phase = s.phase := rfl
@[simp] theorem emit_seq (e : Event) (s : State) : (s.emit e).seq = s.seq := rfl
@[simp] theorem emit_mode (e : Event) (s : State) : (s.emit e).mode = s.mode := rfl
@[simp] theorem emit_a (e : Event) (s : State) : (s.emit e).a = s.a := rfl
@[simp] theorem emit_cyc (e : Event) (s : State) : (s.emit e).cyc = s.cyc := rfl
@[simp] theorem emit_row (e : Event) (s : State) : (s.emit e).row = s.row := rfl
@[simp] theorem emit_rowsOut (e : Event) (s : State) : (s.emit e).rowsOut = s.rowsOut := rfl
@[simp] theorem emit_busy (e : Event) (s : State) : (s.emit e).busy = s.busy := rfl
@[simp] theorem emit_fault (e : Event) (s : State) : (s.emit e).fault = s.fault := rfl
@[simp] theorem emit_fcode (e : Event) (s : State) : (s.emit e).fcode = s.fcode := rfl
@[simp] theorem emit_finfo (e : Event) (s : State) : (s.emit e).finfo = s.finfo := rfl
@[simp] theorem emit_cfgRowDelay (e : Event) (s : State) : (s.emit e).cfgRowDelay = s.cfgRowDelay := rfl
@[simp] theorem emit_trace (e : Event) (s : State) : (s.emit e).trace = s.trace ++ [e] := rfl
@[simp] theorem emit_cfg (e : Event) (s : State) : (s.emit e).cfg = s.cfg := rfl
@[simp] theorem emit_cmdIn (e : Event) (s : State) : (s.emit e).cmdIn = s.cmdIn := rfl
@[simp] theorem emit_rstIn (e : Event) (s : State) : (s.emit e).rstIn = s.rstIn := rfl
@[simp] theorem emit_inReset (e : Event) (s : State) : (s.emit e).inReset = s.inReset := rfl
@[simp] theorem emit_ackIn (e : Event) (s : State) : (s.emit e).ackIn = s.ackIn := rfl
@[simp] theorem emit_ackRest (e : Event) (s : State) : (s.emit e).ackRest = s.ackRest := rfl

/-! ### `tick`: a step passed at the ports -/

@[simp] theorem tick_fb (s : State) : (s.tick).fb = s.fb := rfl
@[simp] theorem tick_scratch (s : State) : (s.tick).scratch = s.scratch := rfl
@[simp] theorem tick_phase (s : State) : (s.tick).phase = s.phase := rfl
@[simp] theorem tick_seq (s : State) : (s.tick).seq = s.seq := rfl
@[simp] theorem tick_mode (s : State) : (s.tick).mode = s.mode := rfl
@[simp] theorem tick_a (s : State) : (s.tick).a = s.a := rfl
@[simp] theorem tick_cyc (s : State) : (s.tick).cyc = s.cyc := rfl
@[simp] theorem tick_row (s : State) : (s.tick).row = s.row := rfl
@[simp] theorem tick_rowsOut (s : State) : (s.tick).rowsOut = s.rowsOut := rfl
@[simp] theorem tick_busy (s : State) : (s.tick).busy = s.busy := rfl
@[simp] theorem tick_fault (s : State) : (s.tick).fault = s.fault := rfl
@[simp] theorem tick_fcode (s : State) : (s.tick).fcode = s.fcode := rfl
@[simp] theorem tick_finfo (s : State) : (s.tick).finfo = s.finfo := rfl
@[simp] theorem tick_cfgRowDelay (s : State) : (s.tick).cfgRowDelay = s.cfgRowDelay := rfl
@[simp] theorem tick_trace (s : State) : (s.tick).trace = s.trace := rfl
@[simp] theorem tick_cfg (s : State) : (s.tick).cfg = s.cfg := rfl
@[simp] theorem tick_cmdIn (s : State) : (s.tick).cmdIn = heldCommands s.cmdIn := rfl
@[simp] theorem tick_rstIn (s : State) : (s.tick).rstIn = s.rstIn.tail := rfl
@[simp] theorem tick_inReset (s : State) : (s.tick).inReset = s.inReset := rfl
@[simp] theorem tick_ackIn (s : State) : (s.tick).ackIn = s.ackIn := rfl
@[simp] theorem tick_ackRest (s : State) : (s.tick).ackRest = s.ackRest := rfl

/-! ### `popCommand`: a word accepted -/

@[simp] theorem popCommand_fb (s : State) : (s.popCommand).fb = s.fb := rfl
@[simp] theorem popCommand_scratch (s : State) : (s.popCommand).scratch = s.scratch := rfl
@[simp] theorem popCommand_phase (s : State) : (s.popCommand).phase = s.phase := rfl
@[simp] theorem popCommand_seq (s : State) : (s.popCommand).seq = s.seq := rfl
@[simp] theorem popCommand_mode (s : State) : (s.popCommand).mode = s.mode := rfl
@[simp] theorem popCommand_a (s : State) : (s.popCommand).a = s.a := rfl
@[simp] theorem popCommand_cyc (s : State) : (s.popCommand).cyc = s.cyc := rfl
@[simp] theorem popCommand_row (s : State) : (s.popCommand).row = s.row := rfl
@[simp] theorem popCommand_rowsOut (s : State) : (s.popCommand).rowsOut = s.rowsOut := rfl
@[simp] theorem popCommand_busy (s : State) : (s.popCommand).busy = s.busy := rfl
@[simp] theorem popCommand_fault (s : State) : (s.popCommand).fault = s.fault := rfl
@[simp] theorem popCommand_fcode (s : State) : (s.popCommand).fcode = s.fcode := rfl
@[simp] theorem popCommand_finfo (s : State) : (s.popCommand).finfo = s.finfo := rfl
@[simp] theorem popCommand_cfgRowDelay (s : State) : (s.popCommand).cfgRowDelay = s.cfgRowDelay := rfl
@[simp] theorem popCommand_trace (s : State) : (s.popCommand).trace = s.trace := rfl
@[simp] theorem popCommand_cfg (s : State) : (s.popCommand).cfg = s.cfg := rfl
@[simp] theorem popCommand_cmdIn (s : State) : (s.popCommand).cmdIn = s.cmdIn.tail := rfl
@[simp] theorem popCommand_rstIn (s : State) : (s.popCommand).rstIn = s.rstIn := rfl
@[simp] theorem popCommand_inReset (s : State) : (s.popCommand).inReset = s.inReset := rfl
@[simp] theorem popCommand_ackIn (s : State) : (s.popCommand).ackIn = s.ackIn := rfl
@[simp] theorem popCommand_ackRest (s : State) : (s.popCommand).ackRest = s.ackRest := rfl

/-! ### `resetBy`: a step with `rst` asserted (70_reset R125) -/

@[simp] theorem resetBy_fb (img : ResetImage) (s : State) : (s.resetBy img).fb = Memory.load img.fb s.cfg.fbBytes := rfl
@[simp] theorem resetBy_scratch (img : ResetImage) (s : State) : (s.resetBy img).scratch = (List.range s.cfg.rowWords).map fun j => img.scratch.getD j 0x0000#16 := rfl
@[simp] theorem resetBy_phase (img : ResetImage) (s : State) : (s.resetBy img).phase = .idle := rfl
@[simp] theorem resetBy_seq (img : ResetImage) (s : State) : (s.resetBy img).seq = .idle := rfl
@[simp] theorem resetBy_mode (img : ResetImage) (s : State) : (s.resetBy img).mode = .fill := rfl
@[simp] theorem resetBy_a (img : ResetImage) (s : State) : (s.resetBy img).a = false := rfl
@[simp] theorem resetBy_cyc (img : ResetImage) (s : State) : (s.resetBy img).cyc = 0#16 := rfl
@[simp] theorem resetBy_row (img : ResetImage) (s : State) : (s.resetBy img).row = 0#13 := rfl
@[simp] theorem resetBy_rowsOut (img : ResetImage) (s : State) : (s.resetBy img).rowsOut = 0#13 := rfl
@[simp] theorem resetBy_busy (img : ResetImage) (s : State) : (s.resetBy img).busy = false := rfl
@[simp] theorem resetBy_fault (img : ResetImage) (s : State) : (s.resetBy img).fault = false := rfl
@[simp] theorem resetBy_fcode (img : ResetImage) (s : State) : (s.resetBy img).fcode = .none := rfl
@[simp] theorem resetBy_finfo (img : ResetImage) (s : State) : (s.resetBy img).finfo = 0x00000000#32 := rfl
@[simp] theorem resetBy_cfgRowDelay (img : ResetImage) (s : State) : (s.resetBy img).cfgRowDelay = s.cfg.rowDelay := rfl
@[simp] theorem resetBy_trace (img : ResetImage) (s : State) : (s.resetBy img).trace = [] := rfl
@[simp] theorem resetBy_cfg (img : ResetImage) (s : State) : (s.resetBy img).cfg = s.cfg := rfl
@[simp] theorem resetBy_cmdIn (img : ResetImage) (s : State) : (s.resetBy img).cmdIn = s.cmdIn := rfl
@[simp] theorem resetBy_rstIn (img : ResetImage) (s : State) : (s.resetBy img).rstIn = s.rstIn := rfl
@[simp] theorem resetBy_inReset (img : ResetImage) (s : State) : (s.resetBy img).inReset = true := rfl
@[simp] theorem resetBy_ackIn (img : ResetImage) (s : State) : (s.resetBy img).ackIn = s.ackIn := rfl
@[simp] theorem resetBy_ackRest (img : ResetImage) (s : State) : (s.resetBy img).ackRest = s.ackRest := rfl

/-! ### `released`: `rst` released -/

@[simp] theorem released_fb (s : State) : (s.released).fb = s.fb := rfl
@[simp] theorem released_scratch (s : State) : (s.released).scratch = s.scratch := rfl
@[simp] theorem released_phase (s : State) : (s.released).phase = s.phase := rfl
@[simp] theorem released_seq (s : State) : (s.released).seq = s.seq := rfl
@[simp] theorem released_mode (s : State) : (s.released).mode = s.mode := rfl
@[simp] theorem released_a (s : State) : (s.released).a = s.a := rfl
@[simp] theorem released_cyc (s : State) : (s.released).cyc = s.cyc := rfl
@[simp] theorem released_row (s : State) : (s.released).row = s.row := rfl
@[simp] theorem released_rowsOut (s : State) : (s.released).rowsOut = s.rowsOut := rfl
@[simp] theorem released_busy (s : State) : (s.released).busy = s.busy := rfl
@[simp] theorem released_fault (s : State) : (s.released).fault = s.fault := rfl
@[simp] theorem released_fcode (s : State) : (s.released).fcode = s.fcode := rfl
@[simp] theorem released_finfo (s : State) : (s.released).finfo = s.finfo := rfl
@[simp] theorem released_cfgRowDelay (s : State) : (s.released).cfgRowDelay = s.cfgRowDelay := rfl
@[simp] theorem released_trace (s : State) : (s.released).trace = s.trace := rfl
@[simp] theorem released_cfg (s : State) : (s.released).cfg = s.cfg := rfl
@[simp] theorem released_cmdIn (s : State) : (s.released).cmdIn = s.cmdIn := rfl
@[simp] theorem released_rstIn (s : State) : (s.released).rstIn = s.rstIn := rfl
@[simp] theorem released_inReset (s : State) : (s.released).inReset = false := rfl
@[simp] theorem released_ackIn (s : State) : (s.released).ackIn = s.ackIn := rfl
@[simp] theorem released_ackRest (s : State) : (s.released).ackRest = s.ackRest := rfl

/-! ### `latch`: FLASH or RENDER accepted -/

@[simp] theorem latch_fb (m : Mode) (v : Bool) (n : U16) (s : State) : (s.latch m v n).fb = s.fb := rfl
@[simp] theorem latch_scratch (m : Mode) (v : Bool) (n : U16) (s : State) : (s.latch m v n).scratch = s.scratch := rfl
@[simp] theorem latch_phase (m : Mode) (v : Bool) (n : U16) (s : State) : (s.latch m v n).phase = s.phase := rfl
@[simp] theorem latch_seq (m : Mode) (v : Bool) (n : U16) (s : State) : (s.latch m v n).seq = .cycleCheck := rfl
@[simp] theorem latch_mode (m : Mode) (v : Bool) (n : U16) (s : State) : (s.latch m v n).mode = m := rfl
@[simp] theorem latch_a (m : Mode) (v : Bool) (n : U16) (s : State) : (s.latch m v n).a = v := rfl
@[simp] theorem latch_cyc (m : Mode) (v : Bool) (n : U16) (s : State) : (s.latch m v n).cyc = n := rfl
@[simp] theorem latch_row (m : Mode) (v : Bool) (n : U16) (s : State) : (s.latch m v n).row = s.row := rfl
@[simp] theorem latch_rowsOut (m : Mode) (v : Bool) (n : U16) (s : State) : (s.latch m v n).rowsOut = s.rowsOut := rfl
@[simp] theorem latch_busy (m : Mode) (v : Bool) (n : U16) (s : State) : (s.latch m v n).busy = true := rfl
@[simp] theorem latch_fault (m : Mode) (v : Bool) (n : U16) (s : State) : (s.latch m v n).fault = s.fault := rfl
@[simp] theorem latch_fcode (m : Mode) (v : Bool) (n : U16) (s : State) : (s.latch m v n).fcode = s.fcode := rfl
@[simp] theorem latch_finfo (m : Mode) (v : Bool) (n : U16) (s : State) : (s.latch m v n).finfo = s.finfo := rfl
@[simp] theorem latch_cfgRowDelay (m : Mode) (v : Bool) (n : U16) (s : State) : (s.latch m v n).cfgRowDelay = s.cfgRowDelay := rfl
@[simp] theorem latch_trace (m : Mode) (v : Bool) (n : U16) (s : State) : (s.latch m v n).trace = s.trace := rfl
@[simp] theorem latch_cfg (m : Mode) (v : Bool) (n : U16) (s : State) : (s.latch m v n).cfg = s.cfg := rfl
@[simp] theorem latch_cmdIn (m : Mode) (v : Bool) (n : U16) (s : State) : (s.latch m v n).cmdIn = s.cmdIn := rfl
@[simp] theorem latch_rstIn (m : Mode) (v : Bool) (n : U16) (s : State) : (s.latch m v n).rstIn = s.rstIn := rfl
@[simp] theorem latch_inReset (m : Mode) (v : Bool) (n : U16) (s : State) : (s.latch m v n).inReset = s.inReset := rfl
@[simp] theorem latch_ackIn (m : Mode) (v : Bool) (n : U16) (s : State) : (s.latch m v n).ackIn = s.ackIn := rfl
@[simp] theorem latch_ackRest (m : Mode) (v : Bool) (n : U16) (s : State) : (s.latch m v n).ackRest = s.ackRest := rfl

/-! ### `frameOpened`: START_FRAME's writes -/

@[simp] theorem frameOpened_fb (s : State) : (s.frameOpened).fb = s.fb := rfl
@[simp] theorem frameOpened_scratch (s : State) : (s.frameOpened).scratch = s.scratch := rfl
@[simp] theorem frameOpened_phase (s : State) : (s.frameOpened).phase = .frameOpen := rfl
@[simp] theorem frameOpened_seq (s : State) : (s.frameOpened).seq = s.seq := rfl
@[simp] theorem frameOpened_mode (s : State) : (s.frameOpened).mode = s.mode := rfl
@[simp] theorem frameOpened_a (s : State) : (s.frameOpened).a = s.a := rfl
@[simp] theorem frameOpened_cyc (s : State) : (s.frameOpened).cyc = s.cyc := rfl
@[simp] theorem frameOpened_row (s : State) : (s.frameOpened).row = 0#13 := rfl
@[simp] theorem frameOpened_rowsOut (s : State) : (s.frameOpened).rowsOut = 0#13 := rfl
@[simp] theorem frameOpened_busy (s : State) : (s.frameOpened).busy = s.busy := rfl
@[simp] theorem frameOpened_fault (s : State) : (s.frameOpened).fault = s.fault := rfl
@[simp] theorem frameOpened_fcode (s : State) : (s.frameOpened).fcode = s.fcode := rfl
@[simp] theorem frameOpened_finfo (s : State) : (s.frameOpened).finfo = s.finfo := rfl
@[simp] theorem frameOpened_cfgRowDelay (s : State) : (s.frameOpened).cfgRowDelay = s.cfgRowDelay := rfl
@[simp] theorem frameOpened_trace (s : State) : (s.frameOpened).trace = s.trace := rfl
@[simp] theorem frameOpened_cfg (s : State) : (s.frameOpened).cfg = s.cfg := rfl
@[simp] theorem frameOpened_cmdIn (s : State) : (s.frameOpened).cmdIn = s.cmdIn := rfl
@[simp] theorem frameOpened_rstIn (s : State) : (s.frameOpened).rstIn = s.rstIn := rfl
@[simp] theorem frameOpened_inReset (s : State) : (s.frameOpened).inReset = s.inReset := rfl
@[simp] theorem frameOpened_ackIn (s : State) : (s.frameOpened).ackIn = s.ackIn := rfl
@[simp] theorem frameOpened_ackRest (s : State) : (s.frameOpened).ackRest = s.ackRest := rfl

/-! ### `clockedOut`: a clock-out's writes -/

@[simp] theorem clockedOut_fb (s : State) : (s.clockedOut).fb = s.fb := rfl
@[simp] theorem clockedOut_scratch (s : State) : (s.clockedOut).scratch = s.scratch := rfl
@[simp] theorem clockedOut_phase (s : State) : (s.clockedOut).phase = .rowEmitted := rfl
@[simp] theorem clockedOut_seq (s : State) : (s.clockedOut).seq = s.seq := rfl
@[simp] theorem clockedOut_mode (s : State) : (s.clockedOut).mode = s.mode := rfl
@[simp] theorem clockedOut_a (s : State) : (s.clockedOut).a = s.a := rfl
@[simp] theorem clockedOut_cyc (s : State) : (s.clockedOut).cyc = s.cyc := rfl
@[simp] theorem clockedOut_row (s : State) : (s.clockedOut).row = s.row := rfl
@[simp] theorem clockedOut_rowsOut (s : State) : (s.clockedOut).rowsOut = s.rowsOut + 1#13 := rfl
@[simp] theorem clockedOut_busy (s : State) : (s.clockedOut).busy = s.busy := rfl
@[simp] theorem clockedOut_fault (s : State) : (s.clockedOut).fault = s.fault := rfl
@[simp] theorem clockedOut_fcode (s : State) : (s.clockedOut).fcode = s.fcode := rfl
@[simp] theorem clockedOut_finfo (s : State) : (s.clockedOut).finfo = s.finfo := rfl
@[simp] theorem clockedOut_cfgRowDelay (s : State) : (s.clockedOut).cfgRowDelay = s.cfgRowDelay := rfl
@[simp] theorem clockedOut_trace (s : State) : (s.clockedOut).trace = s.trace := rfl
@[simp] theorem clockedOut_cfg (s : State) : (s.clockedOut).cfg = s.cfg := rfl
@[simp] theorem clockedOut_cmdIn (s : State) : (s.clockedOut).cmdIn = s.cmdIn := rfl
@[simp] theorem clockedOut_rstIn (s : State) : (s.clockedOut).rstIn = s.rstIn := rfl
@[simp] theorem clockedOut_inReset (s : State) : (s.clockedOut).inReset = s.inReset := rfl
@[simp] theorem clockedOut_ackIn (s : State) : (s.clockedOut).ackIn = s.ackIn := rfl
@[simp] theorem clockedOut_ackRest (s : State) : (s.clockedOut).ackRest = s.ackRest := rfl

/-! ### `rowAdvanced`: `ROW` counted up -/

@[simp] theorem rowAdvanced_fb (s : State) : (s.rowAdvanced).fb = s.fb := rfl
@[simp] theorem rowAdvanced_scratch (s : State) : (s.rowAdvanced).scratch = s.scratch := rfl
@[simp] theorem rowAdvanced_phase (s : State) : (s.rowAdvanced).phase = s.phase := rfl
@[simp] theorem rowAdvanced_seq (s : State) : (s.rowAdvanced).seq = s.seq := rfl
@[simp] theorem rowAdvanced_mode (s : State) : (s.rowAdvanced).mode = s.mode := rfl
@[simp] theorem rowAdvanced_a (s : State) : (s.rowAdvanced).a = s.a := rfl
@[simp] theorem rowAdvanced_cyc (s : State) : (s.rowAdvanced).cyc = s.cyc := rfl
@[simp] theorem rowAdvanced_row (s : State) : (s.rowAdvanced).row = s.row + 1#13 := rfl
@[simp] theorem rowAdvanced_rowsOut (s : State) : (s.rowAdvanced).rowsOut = s.rowsOut := rfl
@[simp] theorem rowAdvanced_busy (s : State) : (s.rowAdvanced).busy = s.busy := rfl
@[simp] theorem rowAdvanced_fault (s : State) : (s.rowAdvanced).fault = s.fault := rfl
@[simp] theorem rowAdvanced_fcode (s : State) : (s.rowAdvanced).fcode = s.fcode := rfl
@[simp] theorem rowAdvanced_finfo (s : State) : (s.rowAdvanced).finfo = s.finfo := rfl
@[simp] theorem rowAdvanced_cfgRowDelay (s : State) : (s.rowAdvanced).cfgRowDelay = s.cfgRowDelay := rfl
@[simp] theorem rowAdvanced_trace (s : State) : (s.rowAdvanced).trace = s.trace := rfl
@[simp] theorem rowAdvanced_cfg (s : State) : (s.rowAdvanced).cfg = s.cfg := rfl
@[simp] theorem rowAdvanced_cmdIn (s : State) : (s.rowAdvanced).cmdIn = s.cmdIn := rfl
@[simp] theorem rowAdvanced_rstIn (s : State) : (s.rowAdvanced).rstIn = s.rstIn := rfl
@[simp] theorem rowAdvanced_inReset (s : State) : (s.rowAdvanced).inReset = s.inReset := rfl
@[simp] theorem rowAdvanced_ackIn (s : State) : (s.rowAdvanced).ackIn = s.ackIn := rfl
@[simp] theorem rowAdvanced_ackRest (s : State) : (s.rowAdvanced).ackRest = s.ackRest := rfl

/-! ### `frameClosed`: END_FRAME's write -/

@[simp] theorem frameClosed_fb (s : State) : (s.frameClosed).fb = s.fb := rfl
@[simp] theorem frameClosed_scratch (s : State) : (s.frameClosed).scratch = s.scratch := rfl
@[simp] theorem frameClosed_phase (s : State) : (s.frameClosed).phase = .frameClosed := rfl
@[simp] theorem frameClosed_seq (s : State) : (s.frameClosed).seq = s.seq := rfl
@[simp] theorem frameClosed_mode (s : State) : (s.frameClosed).mode = s.mode := rfl
@[simp] theorem frameClosed_a (s : State) : (s.frameClosed).a = s.a := rfl
@[simp] theorem frameClosed_cyc (s : State) : (s.frameClosed).cyc = s.cyc := rfl
@[simp] theorem frameClosed_row (s : State) : (s.frameClosed).row = s.row := rfl
@[simp] theorem frameClosed_rowsOut (s : State) : (s.frameClosed).rowsOut = s.rowsOut := rfl
@[simp] theorem frameClosed_busy (s : State) : (s.frameClosed).busy = s.busy := rfl
@[simp] theorem frameClosed_fault (s : State) : (s.frameClosed).fault = s.fault := rfl
@[simp] theorem frameClosed_fcode (s : State) : (s.frameClosed).fcode = s.fcode := rfl
@[simp] theorem frameClosed_finfo (s : State) : (s.frameClosed).finfo = s.finfo := rfl
@[simp] theorem frameClosed_cfgRowDelay (s : State) : (s.frameClosed).cfgRowDelay = s.cfgRowDelay := rfl
@[simp] theorem frameClosed_trace (s : State) : (s.frameClosed).trace = s.trace := rfl
@[simp] theorem frameClosed_cfg (s : State) : (s.frameClosed).cfg = s.cfg := rfl
@[simp] theorem frameClosed_cmdIn (s : State) : (s.frameClosed).cmdIn = s.cmdIn := rfl
@[simp] theorem frameClosed_rstIn (s : State) : (s.frameClosed).rstIn = s.rstIn := rfl
@[simp] theorem frameClosed_inReset (s : State) : (s.frameClosed).inReset = s.inReset := rfl
@[simp] theorem frameClosed_ackIn (s : State) : (s.frameClosed).ackIn = s.ackIn := rfl
@[simp] theorem frameClosed_ackRest (s : State) : (s.frameClosed).ackRest = s.ackRest := rfl

/-! ### `frameDone`: frame done -/

@[simp] theorem frameDone_fb (s : State) : (s.frameDone).fb = s.fb := rfl
@[simp] theorem frameDone_scratch (s : State) : (s.frameDone).scratch = s.scratch := rfl
@[simp] theorem frameDone_phase (s : State) : (s.frameDone).phase = .idle := rfl
@[simp] theorem frameDone_seq (s : State) : (s.frameDone).seq = s.seq := rfl
@[simp] theorem frameDone_mode (s : State) : (s.frameDone).mode = s.mode := rfl
@[simp] theorem frameDone_a (s : State) : (s.frameDone).a = s.a := rfl
@[simp] theorem frameDone_cyc (s : State) : (s.frameDone).cyc = s.cyc := rfl
@[simp] theorem frameDone_row (s : State) : (s.frameDone).row = s.row := rfl
@[simp] theorem frameDone_rowsOut (s : State) : (s.frameDone).rowsOut = s.rowsOut := rfl
@[simp] theorem frameDone_busy (s : State) : (s.frameDone).busy = s.busy := rfl
@[simp] theorem frameDone_fault (s : State) : (s.frameDone).fault = s.fault := rfl
@[simp] theorem frameDone_fcode (s : State) : (s.frameDone).fcode = s.fcode := rfl
@[simp] theorem frameDone_finfo (s : State) : (s.frameDone).finfo = s.finfo := rfl
@[simp] theorem frameDone_cfgRowDelay (s : State) : (s.frameDone).cfgRowDelay = s.cfgRowDelay := rfl
@[simp] theorem frameDone_trace (s : State) : (s.frameDone).trace = s.trace := rfl
@[simp] theorem frameDone_cfg (s : State) : (s.frameDone).cfg = s.cfg := rfl
@[simp] theorem frameDone_cmdIn (s : State) : (s.frameDone).cmdIn = s.cmdIn := rfl
@[simp] theorem frameDone_rstIn (s : State) : (s.frameDone).rstIn = s.rstIn := rfl
@[simp] theorem frameDone_inReset (s : State) : (s.frameDone).inReset = s.inReset := rfl
@[simp] theorem frameDone_ackIn (s : State) : (s.frameDone).ackIn = s.ackIn := rfl
@[simp] theorem frameDone_ackRest (s : State) : (s.frameDone).ackRest = s.ackRest := rfl

/-! ### `protocolViolation`: ProtocolViolation taken (60_exceptions R107) -/

@[simp] theorem protocolViolation_fb (s : State) : (s.protocolViolation).fb = s.fb := rfl
@[simp] theorem protocolViolation_scratch (s : State) : (s.protocolViolation).scratch = s.scratch := rfl
@[simp] theorem protocolViolation_phase (s : State) : (s.protocolViolation).phase = s.phase := rfl
@[simp] theorem protocolViolation_seq (s : State) : (s.protocolViolation).seq = .idle := rfl
@[simp] theorem protocolViolation_mode (s : State) : (s.protocolViolation).mode = s.mode := rfl
@[simp] theorem protocolViolation_a (s : State) : (s.protocolViolation).a = s.a := rfl
@[simp] theorem protocolViolation_cyc (s : State) : (s.protocolViolation).cyc = s.cyc := rfl
@[simp] theorem protocolViolation_row (s : State) : (s.protocolViolation).row = s.row := rfl
@[simp] theorem protocolViolation_rowsOut (s : State) : (s.protocolViolation).rowsOut = s.rowsOut := rfl
@[simp] theorem protocolViolation_busy (s : State) : (s.protocolViolation).busy = false := rfl
@[simp] theorem protocolViolation_fault (s : State) : (s.protocolViolation).fault = true := rfl
@[simp] theorem protocolViolation_fcode (s : State) : (s.protocolViolation).fcode = .protocolViolation := rfl
@[simp] theorem protocolViolation_finfo (s : State) : (s.protocolViolation).finfo = 0x00000000#32 := rfl
@[simp] theorem protocolViolation_cfgRowDelay (s : State) : (s.protocolViolation).cfgRowDelay = s.cfgRowDelay := rfl
@[simp] theorem protocolViolation_trace (s : State) : (s.protocolViolation).trace = s.trace := rfl
@[simp] theorem protocolViolation_cfg (s : State) : (s.protocolViolation).cfg = s.cfg := rfl
@[simp] theorem protocolViolation_cmdIn (s : State) : (s.protocolViolation).cmdIn = s.cmdIn := rfl
@[simp] theorem protocolViolation_rstIn (s : State) : (s.protocolViolation).rstIn = s.rstIn := rfl
@[simp] theorem protocolViolation_inReset (s : State) : (s.protocolViolation).inReset = s.inReset := rfl
@[simp] theorem protocolViolation_ackIn (s : State) : (s.protocolViolation).ackIn = s.ackIn := rfl
@[simp] theorem protocolViolation_ackRest (s : State) : (s.protocolViolation).ackRest = s.ackRest := rfl

/-! ### `goto`: `SEQ` moved -/

@[simp] theorem goto_fb (q : Seq) (s : State) : (s.goto q).fb = s.fb := rfl
@[simp] theorem goto_scratch (q : Seq) (s : State) : (s.goto q).scratch = s.scratch := rfl
@[simp] theorem goto_phase (q : Seq) (s : State) : (s.goto q).phase = s.phase := rfl
@[simp] theorem goto_seq (q : Seq) (s : State) : (s.goto q).seq = q := rfl
@[simp] theorem goto_mode (q : Seq) (s : State) : (s.goto q).mode = s.mode := rfl
@[simp] theorem goto_a (q : Seq) (s : State) : (s.goto q).a = s.a := rfl
@[simp] theorem goto_cyc (q : Seq) (s : State) : (s.goto q).cyc = s.cyc := rfl
@[simp] theorem goto_row (q : Seq) (s : State) : (s.goto q).row = s.row := rfl
@[simp] theorem goto_rowsOut (q : Seq) (s : State) : (s.goto q).rowsOut = s.rowsOut := rfl
@[simp] theorem goto_busy (q : Seq) (s : State) : (s.goto q).busy = s.busy := rfl
@[simp] theorem goto_fault (q : Seq) (s : State) : (s.goto q).fault = s.fault := rfl
@[simp] theorem goto_fcode (q : Seq) (s : State) : (s.goto q).fcode = s.fcode := rfl
@[simp] theorem goto_finfo (q : Seq) (s : State) : (s.goto q).finfo = s.finfo := rfl
@[simp] theorem goto_cfgRowDelay (q : Seq) (s : State) : (s.goto q).cfgRowDelay = s.cfgRowDelay := rfl
@[simp] theorem goto_trace (q : Seq) (s : State) : (s.goto q).trace = s.trace := rfl
@[simp] theorem goto_cfg (q : Seq) (s : State) : (s.goto q).cfg = s.cfg := rfl
@[simp] theorem goto_cmdIn (q : Seq) (s : State) : (s.goto q).cmdIn = s.cmdIn := rfl
@[simp] theorem goto_rstIn (q : Seq) (s : State) : (s.goto q).rstIn = s.rstIn := rfl
@[simp] theorem goto_inReset (q : Seq) (s : State) : (s.goto q).inReset = s.inReset := rfl
@[simp] theorem goto_ackIn (q : Seq) (s : State) : (s.goto q).ackIn = s.ackIn := rfl
@[simp] theorem goto_ackRest (q : Seq) (s : State) : (s.goto q).ackRest = s.ackRest := rfl

/-! ### `withPixel`: SETPX's effect (40_pixel_buffer R63) -/

@[simp] theorem withPixel_fb (s : State) (v : Bool) (y x : Nat) : (s.withPixel v y x).fb = s.fb.write (pixelByte s.cfg y x)
    (withBit (s.fb.read (pixelByte s.cfg y x)) (pixelBit s.cfg y x) v) := rfl
@[simp] theorem withPixel_scratch (s : State) (v : Bool) (y x : Nat) : (s.withPixel v y x).scratch = s.scratch := rfl
@[simp] theorem withPixel_phase (s : State) (v : Bool) (y x : Nat) : (s.withPixel v y x).phase = s.phase := rfl
@[simp] theorem withPixel_seq (s : State) (v : Bool) (y x : Nat) : (s.withPixel v y x).seq = s.seq := rfl
@[simp] theorem withPixel_mode (s : State) (v : Bool) (y x : Nat) : (s.withPixel v y x).mode = s.mode := rfl
@[simp] theorem withPixel_a (s : State) (v : Bool) (y x : Nat) : (s.withPixel v y x).a = s.a := rfl
@[simp] theorem withPixel_cyc (s : State) (v : Bool) (y x : Nat) : (s.withPixel v y x).cyc = s.cyc := rfl
@[simp] theorem withPixel_row (s : State) (v : Bool) (y x : Nat) : (s.withPixel v y x).row = s.row := rfl
@[simp] theorem withPixel_rowsOut (s : State) (v : Bool) (y x : Nat) : (s.withPixel v y x).rowsOut = s.rowsOut := rfl
@[simp] theorem withPixel_busy (s : State) (v : Bool) (y x : Nat) : (s.withPixel v y x).busy = s.busy := rfl
@[simp] theorem withPixel_fault (s : State) (v : Bool) (y x : Nat) : (s.withPixel v y x).fault = s.fault := rfl
@[simp] theorem withPixel_fcode (s : State) (v : Bool) (y x : Nat) : (s.withPixel v y x).fcode = s.fcode := rfl
@[simp] theorem withPixel_finfo (s : State) (v : Bool) (y x : Nat) : (s.withPixel v y x).finfo = s.finfo := rfl
@[simp] theorem withPixel_cfgRowDelay (s : State) (v : Bool) (y x : Nat) : (s.withPixel v y x).cfgRowDelay = s.cfgRowDelay := rfl
@[simp] theorem withPixel_trace (s : State) (v : Bool) (y x : Nat) : (s.withPixel v y x).trace = s.trace := rfl
@[simp] theorem withPixel_cfg (s : State) (v : Bool) (y x : Nat) : (s.withPixel v y x).cfg = s.cfg := rfl
@[simp] theorem withPixel_cmdIn (s : State) (v : Bool) (y x : Nat) : (s.withPixel v y x).cmdIn = s.cmdIn := rfl
@[simp] theorem withPixel_rstIn (s : State) (v : Bool) (y x : Nat) : (s.withPixel v y x).rstIn = s.rstIn := rfl
@[simp] theorem withPixel_inReset (s : State) (v : Bool) (y x : Nat) : (s.withPixel v y x).inReset = s.inReset := rfl
@[simp] theorem withPixel_ackIn (s : State) (v : Bool) (y x : Nat) : (s.withPixel v y x).ackIn = s.ackIn := rfl
@[simp] theorem withPixel_ackRest (s : State) (v : Bool) (y x : Nat) : (s.withPixel v y x).ackRest = s.ackRest := rfl

end Sys2Proof.Machine.State
end

