-- ==== Sys2Proof/Laws/Ops.lean ====
section
/-! SUPPORT. For each shared operation, what it answers: once, so that no later proof unfolds it. -/

namespace Sys2Proof.Machine

theorem admitted_next {s : State} {k : State → Out} (h : s.cfg.wf = true) : s.admitted k = k s := by
  simp [State.admitted, h]

theorem admitted_cases {s t : State} {k : State → Out} (h : s.admitted k = .next t) :
    s.cfg.wf = true ∧ k s = .next t := by
  unfold State.admitted at h
  split at h
  · exact ⟨by assumption, h⟩
  · cases h

theorem needsFb_next {s : State} {w : U32} {k : State → Out} (h : s.cfg.fbAttached = true) : s.needsFb w k = k s := by
  simp [State.needsFb, h]

theorem needsFb_mismatch {s : State} {w : U32} {k : State → Out} (h : s.cfg.fbAttached = false) :
    s.needsFb w k = .next (s.raise .bufferSizeMismatch w) := by
  simp [State.needsFb, h]

theorem call_ack {s : State} (e : Event) (f : State → State) (h : s.ackNow = true) :
    s.call e f = .next (f (s.ackTaken.emit e)) := by
  simp [State.call, h]

theorem call_wait {s : State} (e : Event) (f : State → State) (h : s.ackNow = false) :
    s.call e f = .next s.ackTaken := by
  simp [State.call, h]

/-- Everything a call can do: it completes and the step's writes follow, or the block waits. -/
theorem call_cases {s t : State} {e : Event} {f : State → State} (h : s.call e f = .next t) :
    (s.ackNow = true ∧ t = f (s.ackTaken.emit e)) ∨ (s.ackNow = false ∧ t = s.ackTaken) := by
  unfold State.call at h
  split at h
  · rename_i ha; cases h; exact .inl ⟨ha, rfl⟩
  · rename_i ha; cases h; exact .inr ⟨by simpa using ha, rfl⟩

theorem ackNow_of_callsReturn {s : State} (h : s.ackIn = [] ∧ s.ackRest = true) : s.ackNow = true := by
  simp [State.ackNow, h.1, h.2]

theorem fbRead_ok {s : State} {a : Nat} (h : a < s.cfg.fbBytes) : s.fbRead a = .ok (s.fb.read a) := by
  simp [State.fbRead, h]

theorem fbWrite_ok {s : State} {a : Nat} (b : U8) (h : a < s.cfg.fbBytes) :
    s.fbWrite a b = .ok { s with fb := s.fb.write a b } := by
  simp [State.fbWrite, h]

theorem fbSlice_ok {s : State} {base n : Nat} (h : base + n ≤ s.cfg.fbBytes) :
    s.fbSlice base n = .ok ((List.range n).map fun j => s.fb.read (base + j)) := by
  simp [State.fbSlice, h]

theorem heldCommands_some (w : U32) (rest : List (Option U32)) : heldCommands (some w :: rest) = some w :: rest := rfl

theorem heldCommands_nil : heldCommands [] = [] := rfl

theorem cmdNow_some {s : State} {w : U32} (h : s.cmdNow = some w) : ∃ rest, s.cmdIn = some w :: rest := by
  unfold State.cmdNow at h
  split at h
  · rename_i v rest e; cases h; exact ⟨rest, e⟩
  · cases h

theorem rstNow_nil {s : State} (h : s.rstIn = []) : s.rstNow = none := by simp [State.rstNow, h]

/-! ### Validity of the frame operations (43_frame_driver R81) -/

theorem startValid_iff (s : State) : s.startValid = true ↔ s.phase = .idle := by simp [State.startValid]

theorem startValid_eq_false (s : State) : s.startValid = false ↔ s.phase ≠ .idle := by simp [State.startValid]

theorem emitValid_iff (s : State) : s.emitValid = true ↔ s.phase = .frameOpen ∨ s.phase = .rowEmitted := by
  simp [State.emitValid]

theorem emitValid_eq_false (s : State) : s.emitValid = false ↔ s.phase ≠ .frameOpen ∧ s.phase ≠ .rowEmitted := by
  simp [State.emitValid]

theorem endValid_iff (s : State) :
    s.endValid = true ↔ s.phase = .rowEmitted ∧ s.cfg.height + 1 ≤ s.rowsOut.toNat := by
  simp [State.endValid]

theorem endValid_eq_false (s : State) :
    s.endValid = false ↔ s.phase ≠ .rowEmitted ∨ s.rowsOut.toNat < s.cfg.height + 1 := by
  simp only [State.endValid, Bool.and_eq_false_iff, decide_eq_false_iff_not, Nat.not_le]

/-! ### The compositor -/

theorem reorderRow_length (c : Config) (r : Row) : (reorderRow c r).length = r.length := by
  unfold reorderRow
  split <;> simp

theorem composeFillRow_eq (c : Config) (black : Bool) : composeFillRow c black = fillRow c black := by
  unfold composeFillRow fillRow
  congr 1
  cases c.rowWordOrder <;> cases black <;> decide

theorem fillRow_length (c : Config) (black : Bool) : (fillRow c black).length = c.rowWords := by simp [fillRow]

theorem pixRow_length (c : Config) (fb : Memory) (y : Nat) (inv : Bool) : (pixRow c fb y inv).length = c.rowWords := by
  simp [pixRow]

/-- COMPOSE_PIXEL_ROW of a row on the panel is the closed form of 43_frame_driver R89. -/
theorem composePixelRow_ok {s : State} (h : s.cfg.wf = true) {y : Nat} (hy : y < s.cfg.height) (inv : Bool) :
    s.composePixelRow y inv = .ok (pixRow s.cfg s.fb y inv) := by
  unfold State.composePixelRow
  rw [fbSlice_ok (rowBase_le h hy), pixRow, Config.rowWords_eq h]
  simp [Function.comp_def]

theorem composedRow_fill {s : State} (h : s.mode = .fill) : s.composedRow = .ok (fillRow s.cfg s.a) := by
  simp [State.composedRow, h, composeFillRow_eq]

theorem composedRow_pixel {s : State} (hc : s.cfg.wf = true) (h : s.mode = .pixel) (hr : s.row.toNat < s.cfg.height) :
    s.composedRow = .ok (pixRow s.cfg s.fb s.row.toNat s.a) := by
  simp [State.composedRow, h, composePixelRow_ok hc hr]

/-- SETPX's read-modify-write of a pixel on the panel. -/
theorem setPixel_ok {s : State} (h : s.cfg.wf = true) (v : Bool) {y x : Nat} (hx : x < s.cfg.width)
    (hy : y < s.cfg.height) :
    s.setPixel v y x = .next (s.withPixel v y x) := by
  have ha := pixelByte_lt h hx hy
  simp [State.setPixel, State.withPixel, fbRead_ok ha, fbWrite_ok _ ha]

end Sys2Proof.Machine
end

