-- ==== Sys2Proof/Laws/PerInstr.lean ====
section
/-! SUPPORT. Statements made once per constructor of Instr, about the command as syntax. -/

namespace Sys2Proof.Laws.SelectedByItsRow

/-- A command's word selects the command's own row of the opcode map (30_encoding R51): `w & mask = match`. -/
def Statement (i : Instr) : Prop := i.row.selects (encode i) = true

theorem clear : Statement .clear := by unfold Statement; decide

theorem fill (v : Bool) : Statement (.fill v) := by
  unfold Statement; cases v <;> decide

theorem setpx (v : Bool) (y x : BitVec 12) : Statement (.setpx v y x) := by
  refine decide_eq_true ?_
  apply BitVec.eq_of_getLsbD_eq
  intro i hi
  interval_cases i <;> simp [Instr.row, rowSetpx, encode, formatP, fieldAt]

theorem flash (a : Bool) (n : U16) : Statement (.flash a n) := by
  refine decide_eq_true ?_
  apply BitVec.eq_of_getLsbD_eq
  intro i hi
  interval_cases i <;> simp [Instr.row, rowFlash, encode, formatC, fieldAt]

theorem render (a : Bool) (n : U16) : Statement (.render a n) := by
  refine decide_eq_true ?_
  apply BitVec.eq_of_getLsbD_eq
  intro i hi
  interval_cases i <;> simp [Instr.row, rowRender, encode, formatC, fieldAt]

end Sys2Proof.Laws.SelectedByItsRow
end

