-- ==== Sys2Proof/Laws/Step.lean ====
section
/-! SUPPORT. What a step, an accepted word, a command and a micro-step can do: one inversion lemma each ("if it
answers next t, then one of these cases holds"), from which invariants and frames follow without unfolding. -/

namespace Sys2Proof.Machine

/-- Everything a step can do. -/
theorem step_cases {s t : State} (h : step s = .next t) :
    s.cfg.wf = true ∧
      ((∃ img, s.rstNow = some img ∧ t = s.tick.resetBy img) ∨
        (s.rstNow = none ∧ s.inReset = true ∧ t = s.tick.released) ∨
        (s.rstNow = none ∧ s.inReset = false ∧ s.seq = .idle ∧
          ((∃ w, s.cmdNow = some w ∧ s.cmdReady = true ∧ acceptWord w s.tick.popCommand = .next t) ∨
            ((s.cmdNow = none ∨ s.cmdReady = false) ∧ t = s.tick))) ∨
        (s.rstNow = none ∧ s.inReset = false ∧ s.seq ≠ .idle ∧ sequencerStep s.tick = .next t)) := by
  unfold step blockStep at h
  obtain ⟨hwf, h⟩ := admitted_cases h
  refine ⟨hwf, ?_⟩
  split at h
  · rename_i img e
    cases h
    exact .inl ⟨img, e, rfl⟩
  · rename_i e
    split at h
    · rename_i hr
      cases h
      exact .inr (.inl ⟨e, hr, rfl⟩)
    · rename_i hr
      have hr : s.inReset = false := by simpa using hr
      unfold runStep at h
      split at h
      · rename_i hq
        refine .inr (.inr (.inl ⟨e, hr, hq, ?_⟩))
        unfold idleStep at h
        split at h
        · rename_i w hw
          split at h
          · rename_i hc
            exact .inl ⟨w, hw, hc, h⟩
          · rename_i hc
            cases h
            exact .inr ⟨.inr (by simpa using hc), rfl⟩
        · rename_i hw
          cases h
          exact .inr ⟨.inl hw, rfl⟩
      · rename_i hq
        exact .inr (.inr (.inr ⟨e, hr, by simpa using hq, h⟩))

/-- A step of the sequencer when no reset is under way. -/
theorem step_of_running {s : State} (hwf : s.cfg.wf = true) (hr : s.rstNow = none) (hi : s.inReset = false)
    (hq : s.seq ≠ .idle) : step s = sequencerStep s.tick := by
  unfold step blockStep
  rw [admitted_next hwf]
  simp only [hr, hi, Bool.false_eq_true, if_false]
  unfold runStep
  split
  · contradiction
  · rfl

/-- A step in `S_IDLE` when no reset is under way. -/
theorem step_of_idle {s : State} (hwf : s.cfg.wf = true) (hr : s.rstNow = none) (hi : s.inReset = false)
    (hq : s.seq = .idle) : step s = idleStep s := by
  unfold step blockStep
  rw [admitted_next hwf]
  simp only [hr, hi, Bool.false_eq_true, if_false]
  simp [runStep, hq]

/-- Everything an accepted word can do. -/
theorem acceptWord_cases {w : U32} {s t : State} (h : acceptWord w s = .next t) :
    (∃ why, decode w = .illegal why ∧ t = s.raise .illegalCommand w) ∨
      (∃ i, decode w = .instr i ∧ exec i s = .next t) := by
  unfold acceptWord at h
  split at h
  · rename_i i e; exact .inr ⟨i, e, h⟩
  · rename_i why e; cases h; exact .inl ⟨why, e, rfl⟩

/-- Everything a command can do in the step that accepts it: a fault whose entry is all that happens, or its own
effect under the conditions of its rule. -/
theorem exec_cases {i : Instr} {s t : State} (h : exec i s = .next t) :
    s.cfg.wf = true ∧
      ((s.cfg.fbAttached = false ∧ t = s.raise .bufferSizeMismatch (encode i)) ∨
        (s.cfg.fbAttached = true ∧ (∃ v y x, i = .setpx v y x ∧ ¬(x.toNat < s.cfg.width ∧ y.toNat < s.cfg.height) ∧
          t = s.raise .outOfRange (encode i))) ∨
        (s.cfg.fbAttached = true ∧ i = .clear ∧ t = s.fbFill (solidByte false)) ∨
        (s.cfg.fbAttached = true ∧ ∃ v, i = .fill v ∧ t = s.fbFill (solidByte v)) ∨
        (s.cfg.fbAttached = true ∧ ∃ v y x, i = .setpx v y x ∧ x.toNat < s.cfg.width ∧ y.toNat < s.cfg.height ∧
          t = s.withPixel v y.toNat x.toNat) ∨
        (∃ a n, i = .flash a n ∧ t = s.latch .fill a n) ∨
        (s.cfg.fbAttached = true ∧ ∃ a n, i = .render a n ∧ t = s.latch .pixel a n)) := by
  cases i with
  | flash a n =>
    unfold exec execFlash at h
    obtain ⟨hwf, h⟩ := admitted_cases h
    cases h
    exact ⟨hwf, .inr (.inr (.inr (.inr (.inr (.inl ⟨a, n, rfl, rfl⟩)))))⟩
  | clear =>
    unfold exec execClear at h
    obtain ⟨hwf, h⟩ := admitted_cases h
    refine ⟨hwf, ?_⟩
    cases hb : s.cfg.fbAttached with
    | false => rw [needsFb_mismatch hb] at h; cases h; exact .inl ⟨rfl, rfl⟩
    | true => rw [needsFb_next hb] at h; cases h; exact .inr (.inr (.inl ⟨rfl, rfl, rfl⟩))
  | fill v =>
    unfold exec execFill at h
    obtain ⟨hwf, h⟩ := admitted_cases h
    refine ⟨hwf, ?_⟩
    cases hb : s.cfg.fbAttached with
    | false => rw [needsFb_mismatch hb] at h; cases h; exact .inl ⟨rfl, rfl⟩
    | true => rw [needsFb_next hb] at h; cases h; exact .inr (.inr (.inr (.inl ⟨rfl, v, rfl, rfl⟩)))
  | render a n =>
    unfold exec execRender at h
    obtain ⟨hwf, h⟩ := admitted_cases h
    refine ⟨hwf, ?_⟩
    cases hb : s.cfg.fbAttached with
    | false => rw [needsFb_mismatch hb] at h; cases h; exact .inl ⟨rfl, rfl⟩
    | true => rw [needsFb_next hb] at h; cases h; exact .inr (.inr (.inr (.inr (.inr (.inr ⟨rfl, a, n, rfl, rfl⟩)))))
  | setpx v y x =>
    unfold exec execSetpx at h
    obtain ⟨hwf, h⟩ := admitted_cases h
    refine ⟨hwf, ?_⟩
    cases hb : s.cfg.fbAttached with
    | false => rw [needsFb_mismatch hb] at h; cases h; exact .inl ⟨rfl, rfl⟩
    | true =>
      rw [needsFb_next hb] at h
      split at h
      · rename_i hr
        rw [setPixel_ok hwf v hr.1 hr.2] at h
        cases h
        exact .inr (.inr (.inr (.inr (.inl ⟨rfl, v, y, x, rfl, hr.1, hr.2, rfl⟩))))
      · rename_i hr
        cases h
        exact .inr (.inl ⟨rfl, v, y, x, rfl, hr, rfl⟩)

/-- What a micro-step can do, by the value of `SEQ` (43_frame_driver R88): `t` is what the table's row writes, or a
wait of the row's call, or ProtocolViolation where its validity condition fails. -/
theorem sequencerStep_cases {s t : State} (h : sequencerStep s = .next t) :
    (s.seq = .idle ∧ t = s) ∨
      (s.seq = .cycleCheck ∧ s.cyc = 0#16 ∧ t = ({ s with busy := false } : State).goto .idle) ∨
      (s.seq = .cycleCheck ∧ s.cyc ≠ 0#16 ∧ t = s.goto .start) ∨
      (s.seq = .rowCheck ∧ s.row.toNat < s.cfg.height ∧ t = s.goto .compose) ∨
      (s.seq = .rowCheck ∧ ¬s.row.toNat < s.cfg.height ∧ t = s.goto .trail) ∨
      (∃ r, s.seq = .compose ∧ s.composedRow = .ok r ∧ t = ({ s with scratch := r } : State).goto .reorder) ∨
      (s.seq = .next ∧ t = ({ s with cyc := s.cyc - 1#16 } : State).frameDone.goto .cycleCheck) ∨
      ((s.seq = .start ∧ s.startValid = false ∨ s.seq = .stage1 ∧ s.emitValid = false ∨
          s.seq = .endFrame ∧ s.endValid = false) ∧ t = s.protocolViolation) ∨
      (s.tReq = true ∧ s.ackNow = false ∧ t = s.ackTaken) ∨
      (s.ackNow = true ∧
        ((s.seq = .start ∧ s.startValid = true ∧ t = (s.ackTaken.emit .startFrame).frameOpened.goto .rowCheck) ∨
          (s.seq = .reorder ∧ t = ({ s.ackTaken.emit (.reorder s.scratch) with
              scratch := reorderRow s.cfg s.scratch } : State).goto .stage1) ∨
          (s.seq = .stage1 ∧ s.emitValid = true ∧ s.mode = .pixel ∧
            t = (s.ackTaken.emit (.stage s.scratch)).goto .switch) ∨
          (s.seq = .stage1 ∧ s.emitValid = true ∧ s.mode = .fill ∧
            t = (s.ackTaken.emit (.stage s.scratch)).goto .clock) ∨
          (s.seq = .switch ∧ t = (s.ackTaken.emit .switchBuffer).goto .stage2) ∨
          (s.seq = .stage2 ∧ t = (s.ackTaken.emit (.stage s.scratch)).goto .clock) ∨
          (s.seq = .clock ∧
            t = (s.ackTaken.emit (.writeRow s.cfgRowDelay)).clockedOut.rowAdvanced.goto .rowCheck) ∨
          (s.seq = .trail ∧ t = (s.ackTaken.emit (.writeRow s.cfgRowDelay)).clockedOut.goto .endFrame) ∨
          (s.seq = .endFrame ∧ s.endValid = true ∧ t = (s.ackTaken.emit .endFrame).frameClosed.goto .next))) := by
  unfold sequencerStep at h
  split at h
  · rename_i hq; cases h; exact .inl ⟨hq, rfl⟩
  · rename_i hq
    unfold seqCycleCheck at h
    split at h <;> cases h <;> simp [*]
  · rename_i hq
    unfold seqStart at h
    split at h
    · rename_i hv
      rcases call_cases h with ⟨ha, rfl⟩ | ⟨ha, rfl⟩ <;> simp [*, State.tReq, State.pendingCall]
    · cases h; simp_all
  · rename_i hq
    unfold seqRowCheck at h
    split at h <;> rename_i hr <;> cases h <;> simp only [hq, hr] <;> simp
  · rename_i hq
    unfold seqCompose at h
    split at h
    · cases h
    · rename_i r hr
      cases h
      exact .inr (.inr (.inr (.inr (.inr (.inl ⟨r, hq, hr, rfl⟩)))))
  · rename_i hq
    rcases call_cases h with ⟨ha, rfl⟩ | ⟨ha, rfl⟩ <;> simp [*, State.tReq, State.pendingCall]
  · rename_i hq
    unfold seqStage1 at h
    split at h
    · rename_i hv
      rcases call_cases h with ⟨ha, rfl⟩ | ⟨ha, rfl⟩
      · cases hm : s.mode <;> simp [*]
      · simp [*, State.tReq, State.pendingCall]
    · cases h; simp_all
  · rename_i hq
    rcases call_cases h with ⟨ha, rfl⟩ | ⟨ha, rfl⟩ <;> simp [*, State.tReq, State.pendingCall]
  · rename_i hq
    rcases call_cases h with ⟨ha, rfl⟩ | ⟨ha, rfl⟩ <;> simp [*, State.tReq, State.pendingCall]
  · rename_i hq
    rcases call_cases h with ⟨ha, rfl⟩ | ⟨ha, rfl⟩ <;> simp [*, State.tReq, State.pendingCall]
  · rename_i hq
    rcases call_cases h with ⟨ha, rfl⟩ | ⟨ha, rfl⟩ <;> simp [*, State.tReq, State.pendingCall]
  · rename_i hq
    unfold seqEnd at h
    split at h
    · rename_i hv
      rcases call_cases h with ⟨ha, rfl⟩ | ⟨ha, rfl⟩ <;> simp [*, State.tReq, State.pendingCall]
    · cases h; simp_all
  · rename_i hq; cases h; simp [*]

/-! ### One equation per row of the table of 43_frame_driver R88 -/

theorem sequencerStep_done {s : State} (h : s.seq = .cycleCheck) (hc : s.cyc = 0#16) :
    sequencerStep s = .next (({ s with busy := false } : State).goto .idle) := by
  simp only [sequencerStep, h]; exact if_pos hc

theorem sequencerStep_again {s : State} (h : s.seq = .cycleCheck) (hc : s.cyc ≠ 0#16) :
    sequencerStep s = .next (s.goto .start) := by
  simp only [sequencerStep, h]; exact if_neg hc

theorem sequencerStep_start {s : State} (h : s.seq = .start) (hp : s.phase = .idle) (ha : s.ackNow = true) :
    sequencerStep s = .next ((s.ackTaken.emit .startFrame).frameOpened.goto .rowCheck) := by
  simp only [sequencerStep, h]
  exact (if_pos ((startValid_iff s).2 hp)).trans (call_ack _ _ ha)

theorem sequencerStep_row {s : State} (h : s.seq = .rowCheck) (hr : s.row.toNat < s.cfg.height) :
    sequencerStep s = .next (s.goto .compose) := by
  simp only [sequencerStep, h]; exact if_pos hr

theorem sequencerStep_noRow {s : State} (h : s.seq = .rowCheck) (hr : s.cfg.height ≤ s.row.toNat) :
    sequencerStep s = .next (s.goto .trail) := by
  simp only [sequencerStep, h]; exact if_neg (Nat.not_lt.2 hr)

theorem sequencerStep_compose {s : State} (h : s.seq = .compose) {r : Row} (hr : s.composedRow = .ok r) :
    sequencerStep s = .next (({ s with scratch := r } : State).goto .reorder) := by
  simp only [sequencerStep, h, seqCompose, hr]

theorem sequencerStep_reorder {s : State} (h : s.seq = .reorder) (ha : s.ackNow = true) :
    sequencerStep s = .next (({ s.ackTaken.emit (.reorder s.scratch) with
      scratch := reorderRow s.cfg s.scratch } : State).goto .stage1) := by
  simp only [sequencerStep, h]
  exact call_ack _ _ ha

theorem sequencerStep_stageFill {s : State} (h : s.seq = .stage1) (hp : s.emitValid = true) (hm : s.mode = .fill)
    (ha : s.ackNow = true) : sequencerStep s = .next ((s.ackTaken.emit (.stage s.scratch)).goto .clock) := by
  simp only [sequencerStep, h]
  refine (if_pos hp).trans ((call_ack _ _ ha).trans ?_)
  simp [hm]

theorem sequencerStep_stagePixel {s : State} (h : s.seq = .stage1) (hp : s.emitValid = true) (hm : s.mode = .pixel)
    (ha : s.ackNow = true) : sequencerStep s = .next ((s.ackTaken.emit (.stage s.scratch)).goto .switch) := by
  simp only [sequencerStep, h]
  refine (if_pos hp).trans ((call_ack _ _ ha).trans ?_)
  simp [hm]

theorem sequencerStep_switch {s : State} (h : s.seq = .switch) (ha : s.ackNow = true) :
    sequencerStep s = .next ((s.ackTaken.emit .switchBuffer).goto .stage2) := by
  simp only [sequencerStep, h]
  exact call_ack _ _ ha

theorem sequencerStep_stage2 {s : State} (h : s.seq = .stage2) (ha : s.ackNow = true) :
    sequencerStep s = .next ((s.ackTaken.emit (.stage s.scratch)).goto .clock) := by
  simp only [sequencerStep, h]
  exact call_ack _ _ ha

theorem sequencerStep_clock {s : State} (h : s.seq = .clock) (ha : s.ackNow = true) :
    sequencerStep s = .next ((s.ackTaken.emit (.writeRow s.cfgRowDelay)).clockedOut.rowAdvanced.goto .rowCheck) := by
  simp only [sequencerStep, h]
  exact call_ack _ _ ha

theorem sequencerStep_trail {s : State} (h : s.seq = .trail) (ha : s.ackNow = true) :
    sequencerStep s = .next ((s.ackTaken.emit (.writeRow s.cfgRowDelay)).clockedOut.goto .endFrame) := by
  simp only [sequencerStep, h]
  exact call_ack _ _ ha

theorem sequencerStep_end {s : State} (h : s.seq = .endFrame) (hp : s.endValid = true) (ha : s.ackNow = true) :
    sequencerStep s = .next ((s.ackTaken.emit .endFrame).frameClosed.goto .next) := by
  simp only [sequencerStep, h]
  exact (if_pos hp).trans (call_ack _ _ ha)

theorem sequencerStep_next {s : State} (h : s.seq = .next) :
    sequencerStep s = .next (({ s with cyc := s.cyc - 1#16 } : State).frameDone.goto .cycleCheck) := by
  simp only [sequencerStep, h, seqNext]

/-- A call that the transport does not complete in this step: the block waits (60_exceptions R110). -/
theorem sequencerStep_wait {s : State} (hq : s.tReq = true) (ha : s.ackNow = false)
    (hstart : s.seq = .start → s.startValid = true) (hstage : s.seq = .stage1 → s.emitValid = true)
    (hend : s.seq = .endFrame → s.endValid = true) : sequencerStep s = .next s.ackTaken := by
  unfold State.tReq State.pendingCall at hq
  unfold sequencerStep
  split <;> rename_i h <;> simp only [h, Option.isSome, Bool.false_eq_true] at hq
  · exact (if_pos (hstart h)).trans (call_wait _ _ ha)
  · exact call_wait _ _ ha
  · exact (if_pos (hstage h)).trans (call_wait _ _ ha)
  · exact call_wait _ _ ha
  · exact call_wait _ _ ha
  · exact call_wait _ _ ha
  · exact call_wait _ _ ha
  · exact (if_pos (hend h)).trans (call_wait _ _ ha)

end Sys2Proof.Machine
end

