-- ==== Sys2Proof/Laws/Run.lean ====
section
/-! SUPPORT. A step that accepts a word, and runs of the machine: none, one step more, one run after another,
the end of one and its result. -/

namespace Sys2Proof.Machine

/-- A step that accepts a word is that word's command, or IllegalCommand (30_encoding R59). -/
theorem step_of_accepts {s : State} {w : U32} {rest : List (Option U32)} (h : s.accepts w rest) :
    step s = acceptWord w (s.accepted rest) := by
  obtain ⟨hwf, hr, hi, hq, hb, hf, hc⟩ := h
  have hw : s.cmdNow = some w := by simp [State.cmdNow, hc]
  have hready : s.cmdReady = true := by simp [State.cmdReady, hb, hf]
  rw [step_of_idle hwf hr hi hq, idleStep, hw]
  simp [hready, State.tick, State.popCommand, State.accepted, hc, heldCommands]

theorem run_zero (s : State) : run 0 s = .next s := rfl

theorem run_succ (k : Nat) (s : State) :
    run (k + 1) s =
      match step s with
      | .next t => run k t
      | .fault r => .fault r
      | .refused r => .refused r := by
  cases h : step s with
  | next t =>
    have h' : Sys2Proof.core.step s = .next t := h
    exact (Host.Core.run.eq_2 Sys2Proof.core s k).trans (by rw [h']; rfl)
  | fault r =>
    have h' : Sys2Proof.core.step s = .fault r := h
    exact (Host.Core.run.eq_2 Sys2Proof.core s k).trans (by rw [h']; rfl)
  | refused r =>
    have h' : Sys2Proof.core.step s = .refused r := h
    exact (Host.Core.run.eq_2 Sys2Proof.core s k).trans (by rw [h']; rfl)

theorem run_step {k : Nat} {s t : State} (h : step s = .next t) : run (k + 1) s = run k t := by rw [run_succ, h]

theorem run_one {s t : State} (h : step s = .next t) : run 1 s = .next t := (run_step h).trans (run_zero t)

/-- A run of `m` steps to `t`, then `n` more from `t`. -/
theorem run_append {m n : Nat} : ∀ {s t : State}, run m s = .next t → run (m + n) s = run n t := by
  induction m with
  | zero => intro s t h; cases h; rw [Nat.zero_add]
  | succ m ih =>
    intro s t h
    rw [run_succ] at h
    rw [Nat.add_right_comm, run_succ]
    split at h
    · exact ih h
    · cases h
    · cases h

/-! ### The end of a run (70_reset R138) -/

theorem over_iff (s : State) :
    s.over = true ↔ (∀ w, some w ∉ s.cmdIn) ∧ s.busy = false ∧ s.seq = .idle ∧ s.phase = .idle := by
  simp only [State.over, Bool.and_eq_true, List.all_eq_true, Option.isNone_iff_eq_none, Bool.not_eq_true',
    decide_eq_true_eq, and_assoc]
  refine and_congr ⟨fun h w hw => (nomatch h _ hw), fun h c hc => ?_⟩ Iff.rfl
  cases c with
  | none => rfl
  | some w => exact absurd hc (h w)

theorem result_of_over {s : State} (h : s.over = true) : s.result = some (s.fb, s.trace, s.statusWord) := if_pos h

theorem result_eq_none_iff (s : State) : s.result = none ↔ s.over = false := by
  cases h : s.over <;> simp [State.result, h]

theorem resultAt_of_next {r : Run} {k : Nat} {t : State} (h : r.after k = .next t) : r.resultAt k = t.result := by
  simp [Run.resultAt, h]

/-- Where a result comes from: a next state that is over. -/
theorem resultAt_eq_some {r : Run} {k : Nat} {x : Memory × List Event × U32} (h : r.resultAt k = some x) :
    ∃ t, r.after k = .next t ∧ t.over = true ∧ x = (t.fb, t.trace, t.statusWord) := by
  unfold Run.resultAt at h
  split at h
  · rename_i t ht
    unfold State.result at h
    split at h
    · cases h; exact ⟨t, ht, by assumption, rfl⟩
    · cases h
  · cases h
  · cases h

/-- A block that is over takes a step in which nothing happens but that the host's inputs go on. -/
theorem step_of_over {s : State} (hwf : s.cfg.wf = true) (hn : s.noReset) (h : s.over = true) :
    step s = .next s.tick := by
  obtain ⟨hc, _, hq, _⟩ := (over_iff s).1 h
  rw [step_of_idle hwf (rstNow_nil hn.1) hn.2 hq]
  have hw : s.cmdNow = none := by
    cases hw : s.cmdNow with
    | none => rfl
    | some w =>
      obtain ⟨rest, e⟩ := cmdNow_some hw
      exact absurd (by rw [e]; exact List.mem_cons_self) (hc w)
  simp [idleStep, hw]

/-! ### The start of a run, field by field -/

@[simp] theorem Run.start_fb (r : Run) : r.start.fb = Memory.load r.image.fb r.cfg.fbBytes := rfl
@[simp] theorem Run.start_phase (r : Run) : r.start.phase = .idle := rfl
@[simp] theorem Run.start_seq (r : Run) : r.start.seq = .idle := rfl
@[simp] theorem Run.start_mode (r : Run) : r.start.mode = .fill := rfl
@[simp] theorem Run.start_a (r : Run) : r.start.a = false := rfl
@[simp] theorem Run.start_cyc (r : Run) : r.start.cyc = 0#16 := rfl
@[simp] theorem Run.start_row (r : Run) : r.start.row = 0#13 := rfl
@[simp] theorem Run.start_rowsOut (r : Run) : r.start.rowsOut = 0#13 := rfl
@[simp] theorem Run.start_busy (r : Run) : r.start.busy = false := rfl
@[simp] theorem Run.start_fault (r : Run) : r.start.fault = false := rfl
@[simp] theorem Run.start_fcode (r : Run) : r.start.fcode = .none := rfl
@[simp] theorem Run.start_finfo (r : Run) : r.start.finfo = 0x00000000#32 := rfl
@[simp] theorem Run.start_cfgRowDelay (r : Run) : r.start.cfgRowDelay = r.cfg.rowDelay := rfl
@[simp] theorem Run.start_trace (r : Run) : r.start.trace = [] := rfl
@[simp] theorem Run.start_cfg (r : Run) : r.start.cfg = r.cfg := rfl
@[simp] theorem Run.start_cmdIn (r : Run) : r.start.cmdIn = r.presented := rfl
@[simp] theorem Run.start_rstIn (r : Run) : r.start.rstIn = [] := rfl
@[simp] theorem Run.start_inReset (r : Run) : r.start.inReset = false := rfl
@[simp] theorem Run.start_ackIn (r : Run) : r.start.ackIn = r.acks := rfl
@[simp] theorem Run.start_ackRest (r : Run) : r.start.ackRest = r.ackRest := rfl
@[simp] theorem Run.start_scratch (r : Run) :
    r.start.scratch = (List.range r.cfg.rowWords).map fun j => r.image.scratch.getD j 0x0000#16 := rfl
theorem Run.start_noReset (r : Run) : r.start.noReset := ⟨rfl, rfl⟩

end Sys2Proof.Machine
end

