-- ==== Sys2Proof/Tests/Slice0.lean ====
section
/-! SUPPORT. Tests: what WellFormed refuses, words of 95_test_vectors decoded, one step each from its vectors, and for
every statement with hypotheses a witness that meets them. Expected values are the spec's own. -/

namespace Sys2Proof.Tests

open Sys2Proof Sys2Proof.Machine

/-! ### Small blocks -/

/-- The small geometry of 95_test_vectors: 16 x 2, `REORDER` the identity. -/
def small : Config where
  width := 16
  height := 2
  rowDelay := 120
  fbLen := 4
  fbBitOrder := .lsb0
  rowWordOrder := .little
  reorder := .identity
  extraSlots := 0

/-- The small geometry with a buffer of the wrong length (95_test_vectors B7). -/
def smallMismatch : Config := { small with fbLen := 5 }

/-- A block on `c`, right after reset with `FB` holding `bytes`. -/
def block (c : Config) (bytes : List U8) : State := State.powerOn c ⟨bytes, []⟩

/-- The same with a word at its command port. -/
def presented (c : Config) (bytes : List U8) (w : U32) : State := { block c bytes with cmdIn := [some w] }

/-- A block in the middle of a command: `SEQ = q`, one frame to go. -/
def running (q : Seq) (p : Phase) (m : Mode) (row rowsOut : BitVec 13) : State :=
  { block small [0x00#8, 0x00#8, 0x08#8, 0x00#8] with
    seq := q, phase := p, mode := m, cyc := 1#16, busy := true, row := row, rowsOut := rowsOut }

/-- A block stopped by an illegal word. -/
def stopped : State := (block small [0x5A#8]).raise .illegalCommand 0x60000000#32

/-- Does a step answer a next state that meets `p`? -/
def answers (o : Out) (p : State → Bool) : Bool :=
  match o with
  | .next t => p t
  | .fault _ => false
  | .refused _ => false

/-- The bytes of `FB`. -/
def bytesOf (s : State) : List U8 := (List.range s.cfg.fbBytes).map s.fb.read

/-! ### WellFormed refuses (00_scope R7, R9; 30_encoding R54, R56) -/

theorem test_wf_small : small.wf = true := by decide
theorem test_wf_largest : ({ small with width := 4096, height := 4096 } : Config).wf = true := by decide
theorem test_wf_smallest : ({ small with width := 8, height := 1 } : Config).wf = true := by decide
theorem test_refuses_width_not_in_bytes : ({ small with width := 12 } : Config).wf = false := by decide
theorem test_refuses_width_zero : ({ small with width := 0 } : Config).wf = false := by decide
theorem test_refuses_width_4104 : ({ small with width := 4104 } : Config).wf = false := by decide
theorem test_refuses_height_zero : ({ small with height := 0 } : Config).wf = false := by decide
theorem test_refuses_height_4097 : ({ small with height := 4097 } : Config).wf = false := by decide
theorem test_mismatched_buffer : smallMismatch.fbAttached = false ∧ smallMismatch.wf = true := by decide
theorem test_step_refuses_malformed :
    (match step { block small [] with cfg := { small with width := 12 } } with
      | .refused .malformedConfiguration => true
      | _ => false) = true := by decide
theorem test_refuses_pixel_off_panel :
    Instr.onPanel small (.setpx true 0#12 16#12) = false ∧ Instr.onPanel small (.setpx true 2#12 0#12) = false ∧
      Instr.onPanel small (.setpx true 1#12 15#12) = true := by decide
theorem test_asm_refuses :
    (AsmLine.setpx 4096 0 (.num 1)).wf = false ∧ (AsmLine.setpx 0 4096 (.num 1)).wf = false ∧
      (AsmLine.setpx 0 0 (.num 2)).wf = false ∧ (AsmLine.fill (.num 2)).wf = false ∧
      (AsmLine.flash .isTrue 1).wf = false ∧ (AsmLine.flash .white 65536).wf = false ∧
      (AsmLine.render 65536 (.num 0)).wf = false ∧ (AsmLine.render 1 .black).wf = false ∧
      (AsmLine.renderNormal 65536).wf = false ∧ (AsmLine.flashDefault .isFalse).wf = false := by decide

/-! ### Decoding (95_test_vectors B1; words written from the formats of 30_encoding R49) -/

theorem test_decode_clear : decode 0x10000000#32 = .instr .clear := by decide
theorem test_decode_fill :
    decode 0x20000000#32 = .instr (.fill false) ∧ decode 0x28000000#32 = .instr (.fill true) := by decide
theorem test_decode_setpx :
    decode 0x3821B3BF#32 = .instr (.setpx true 539#12 959#12) ∧
      decode 0x38FFFFFF#32 = .instr (.setpx true 4095#12 4095#12) ∧
      decode 0x30001002#32 = .instr (.setpx false 1#12 2#12) := by decide
theorem test_decode_flash :
    decode 0x48000010#32 = .instr (.flash true 16#16) ∧ decode 0x4000FFFF#32 = .instr (.flash false 65535#16) := by
  decide
theorem test_decode_render :
    decode 0x58000002#32 = .instr (.render true 2#16) ∧ decode 0x50000010#32 = .instr (.render false 16#16) := by decide
theorem test_decode_illegal_opcode :
    decode 0x00000000#32 = .illegal .opcode ∧ decode 0xFFFFFFFF#32 = .illegal .opcode ∧
      decode 0x60000000#32 = .illegal .opcode := by decide
theorem test_decode_reserved_bits :
    decode 0x11000000#32 = .illegal .reservedBits ∧ decode 0x10000001#32 = .illegal .reservedBits ∧
      decode 0x18000000#32 = .illegal .reservedBits ∧ decode 0x24000000#32 = .illegal .reservedBits ∧
      decode 0x20000001#32 = .illegal .reservedBits ∧ decode 0x31000000#32 = .illegal .reservedBits ∧
      decode 0x50010001#32 = .illegal .reservedBits ∧ decode 0x44000001#32 = .illegal .reservedBits := by decide
theorem test_encode :
    encode .clear = 0x10000000#32 ∧ encode (.fill true) = 0x28000000#32 ∧
      encode (.setpx true 1#12 3#12) = 0x38001003#32 ∧ encode (.flash true 65535#16) = 0x4800FFFF#32 ∧
      encode (.render true 2#16) = 0x58000002#32 := by decide
theorem test_decodeTableWord : decodeTableWord 32 0x38001003 = some (.setpx true 1#12 3#12) := by decide

/-! ### The assembler (30_encoding R56, R57) -/

theorem test_asm_setpx : assembleText 16 "SETPX 959, 539, 1 ; last pixel".toList = some 0x3821B3BF#32 := by decide
theorem test_asm_hexadecimal : assembleText 16 "FLASH black, 0xFFFF".toList = some 0x4800FFFF#32 := by decide
theorem test_asm_defaults :
    assembleText 16 "FLASH white".toList = some 0x40000010#32 ∧ assembleText 16 "RENDER".toList = some 0x50000010#32 ∧
      assembleText 16 "WHITEWASH".toList = some 0x40000010#32 := by decide
theorem test_asm_refuses_text :
    parseLine "SETPX 1, 2".toList = .refused ∧ assembleText 16 "SETPX 4096, 0, 1".toList = none := by decide

/-! ### One step each (95_test_vectors B2, B4 to B8) -/

theorem test_clear :
    answers (step (presented small [0x12#8, 0x34#8, 0x56#8, 0x78#8] 0x10000000#32)) (fun t =>
      bytesOf t == [0x00#8, 0x00#8, 0x00#8, 0x00#8] && t.fb == [] && t.trace == []) = true := by decide
theorem test_fill_black :
    answers (step (presented small [0x12#8] 0x28000000#32)) (fun t =>
      bytesOf t == [0xFF#8, 0xFF#8, 0xFF#8, 0xFF#8] && t.statusWord == 0x00000000#32) = true := by decide
theorem test_setpx :
    answers (step (presented small [] 0x38001003#32)) (fun t =>
      bytesOf t == [0x00#8, 0x00#8, 0x08#8, 0x00#8] && t.cmdIn == []) = true := by decide
theorem test_setpx_msb0 :
    answers (step (presented { small with fbBitOrder := .msb0 } [] 0x38001003#32)) (fun t =>
      bytesOf t == [0x00#8, 0x00#8, 0x10#8, 0x00#8]) = true := by decide
theorem test_setpx_out_of_range :
    answers (step (presented small [0x5A#8] 0x38000010#32)) (fun t =>
      t.statusWord == 0x0000000A#32 && t.finfo == 0x38000010#32 && bytesOf t == [0x5A#8, 0x00#8, 0x00#8, 0x00#8]) =
      true := by decide
theorem test_flash_accepted :
    answers (step (presented small [] 0x48000002#32)) (fun t =>
      t.mode == .fill && t.a && t.cyc == 2#16 && t.statusWord == 0x00000001#32 && t.seq == .cycleCheck) = true := by
  decide
theorem test_render_mismatch :
    answers (step (presented smallMismatch [] 0x50000000#32)) (fun t =>
      t.statusWord == 0x0000000E#32 && t.finfo == 0x50000000#32 && t.trace == []) = true := by decide
theorem test_render_accepted :
    answers (step (presented small [] 0x58000002#32)) (fun t => t.mode == .pixel && t.a && t.cyc == 2#16) = true := by
  decide
theorem test_flash_makes_no_check :
    answers (step (presented smallMismatch [] 0x40000001#32)) (fun t => t.busy && !t.fault) = true := by decide
theorem test_mismatch_before_out_of_range :
    answers (step (presented smallMismatch [] 0x38000010#32)) (fun t => t.statusWord == 0x0000000E#32) = true := by
  decide
theorem test_illegal :
    answers (step (presented small [] 0x60000000#32)) (fun t =>
      t.statusWord == 0x00000006#32 && t.finfo == 0x60000000#32) = true := by decide
theorem test_not_accepted_after_fault :
    answers (step { stopped with cmdIn := [some 0x10000000#32] }) (fun t =>
      t.cmdIn == [some 0x10000000#32] && t.finfo == 0x60000000#32) = true := by decide
theorem test_compose :
    answers (step (running .compose .rowEmitted .pixel 1#13 1#13)) (fun t =>
      t.scratch == [0xAA6A#16, 0xAAAA#16] && rowToBytes .little t.scratch == [0x6A#8, 0xAA#8, 0xAA#8, 0xAA#8] &&
        rowToBytes .big t.scratch == [0xAA#8, 0x6A#8, 0xAA#8, 0xAA#8]) = true := by decide
theorem test_compose_inverse :
    answers (step { running .compose .rowEmitted .pixel 1#13 1#13 with a := true }) (fun t =>
      t.scratch == [0x5595#16, 0x5555#16]) = true := by decide
theorem test_reorder_exchanges_words :
    answers (step { running .reorder .rowEmitted .pixel 1#13 1#13 with
        scratch := [0xAA6A#16, 0xAAAA#16], cfg := { small with reorder := .bytePermutation [2, 3, 0, 1] } }) (fun t =>
      t.trace == [.reorder [0xAA6A#16, 0xAAAA#16]] && t.scratch == [0xAAAA#16, 0xAA6A#16]) = true := by decide
theorem test_clock_out :
    answers (step (running .clock .frameOpen .fill 0#13 0#13)) (fun t =>
      t.trace == [.writeRow 120#32] && t.row == 1#13 && t.rowsOut == 1#13 && t.phase == .rowEmitted) = true := by decide
theorem test_trailing_row :
    answers (step (running .trail .rowEmitted .fill 2#13 2#13)) (fun t =>
      t.trace == [.writeRow 120#32] && t.row == 2#13 && t.rowsOut == 3#13 && t.seq == .endFrame) = true := by decide
theorem test_render_runs_from_reset :
    answers (step (State.reset.withFetchWord 32 0x58000002)) (fun t => t.seq == .cycleCheck && t.cyc == 2#16) = true := by
  decide
theorem test_expand :
    expand 0x3C#8 = 0xA55A#16 ∧ expand 0xA5#8 = 0x6699#16 ∧ expand 0x01#8 = 0xAAA9#16 ∧ invExpand 0x7F#8 = 0x6AAA#16 := by
  decide

/-! ### Witnesses: for every statement with hypotheses, a state and operands that meet all of them -/

/-- The bytes 0x12, 0x34, 0x56, 0x78 of the small geometry. -/
def idleBlock : State := block small [0x12#8, 0x34#8, 0x56#8, 0x78#8]

theorem witness_buffer_premises :
    idleBlock.cfg.wf = true ∧ idleBlock.fb.wf = true ∧ idleBlock.cfg.fbAttached = true := by decide
theorem witness_buffer_premises_mismatch :
    (block smallMismatch [0x12#8]).cfg.wf = true ∧ (block smallMismatch [0x12#8]).fb.wf = true ∧
      (block smallMismatch [0x12#8]).cfg.fbAttached = false ∧
      smallMismatch.fbLen ≠ smallMismatch.fbBytes := by decide
/-- SetpxChangesOneBit, SetpxReadsBackAndLeavesOthers, SetpxLastWriteWins: the last pixel, and one next to it. -/
theorem witness_pixel_in_range :
    (15#12).toNat < idleBlock.cfg.width ∧ (1#12).toNat < idleBlock.cfg.height ∧ (14 : Nat) < idleBlock.cfg.width ∧
      ((14 : Nat), (1 : Nat)) ≠ ((15#12).toNat, (1#12).toNat) ∧ ((15#12, 1#12) : BitVec 12 × BitVec 12) ≠ (14#12, 1#12) := by
  decide
/-- SetpxChangesOneBit, OutOfRangeSetpxRaises: the first column and the first row beyond the panel. -/
theorem witness_pixel_out_of_range :
    idleBlock.cfg.width ≤ (16#12).toNat ∧ idleBlock.cfg.height ≤ (2#12).toNat ∧
      ¬idleBlock.cfg.width ≤ (15#12).toNat ∧ ¬idleBlock.cfg.height ≤ (1#12).toNat := by decide
/-- SetpxLastWriteWins: both sides of its equivalence occur. -/
theorem witness_pixel_white_and_black : getpx idleBlock 0 0 = false ∧ getpx idleBlock 1 0 = true := by decide
/-- PixelAddressesAreABijection, InverseRowIsTheComplement, PixelRowWords, PixelLandsInItsPair: boundary addresses. -/
theorem witness_addresses :
    (3 : Nat) < small.fbBytes ∧ (7 : Nat) < 8 ∧ pixelByte small 1 15 = 3 ∧ pixelBit small 1 15 = 7 ∧
      (1 : Nat) < small.width / 8 ∧ (1 : Nat) < small.height := by decide
theorem witness_bit_orders :
    small.fbBitOrder = .lsb0 ∧ ({ small with fbBitOrder := .msb0 } : Config).wf = true := by decide
theorem witness_pixel_command_completes :
    answers (exec .clear idleBlock) (fun t => decide (t = { idleBlock with fb := t.fb })) = true ∧
      answers (exec (.fill true) (block smallMismatch [])) (fun t => t.fault) = true := by decide
/-- FaultsArePrecise: a command that faults in a state without a fault. -/
theorem witness_fault_raised :
    idleBlock.fault = false ∧
      answers (exec (.setpx true 2#12 0#12) idleBlock) (fun t => t.fault && t.fcode == .outOfRange) = true := by decide

/-- Every statement about an accepted word: a legal one, an illegal one, and a reset list that is not empty. -/
theorem witness_accepts (w : U32) (rest : List (Option U32)) :
    ({ idleBlock with cmdIn := some w :: rest, rstIn := [none, some ⟨[], []⟩] } : State).accepts w rest :=
  ⟨test_wf_small, rfl, rfl, rfl, rfl, rfl, rfl⟩
theorem witness_accepts_mismatch (w : U32) : (presented smallMismatch [] w).accepts w [] :=
  ⟨test_mismatched_buffer.2, rfl, rfl, rfl, rfl, rfl, rfl⟩
theorem witness_priority_words :
    decode 0x38000010#32 = .instr (.setpx true 0#12 16#12) ∧ Instr.onPanel small (.setpx true 0#12 16#12) = false ∧
      decode 0x44000001#32 = .illegal .reservedBits := by decide
/-- OpcodeMapSelectsTheCommand, DecoderTotalAndInjective. -/
theorem witness_selected_row :
    rowSetpx ∈ opcodeMap ∧ 0x38001003#32 &&& rowSetpx.mask = rowSetpx.pattern ∧
      decode 0x38001003#32 = .instr (.setpx true 1#12 3#12) := by decide
theorem witness_asm :
    AsmBool.isTrue.valueOk = true ∧ AsmBool.black.colourOk = true ∧ AsmBool.isFalse.inverseOk = true ∧
      (expandPseudo 16 (.setpx 4095 4095 .black)).wf = true ∧ (expandPseudo 65536 .whitewash).wf = false := by decide

/-- WordIsHeldWhileNotReady: a word presented while a command runs, and one presented after a fault. -/
theorem witness_word_held :
    ({ running .start .idle .fill 0#13 0#13 with cmdIn := [some 0x10000000#32] } : State).cmdReady = false ∧
      answers (step { running .start .idle .fill 0#13 0#13 with cmdIn := [some 0x10000000#32] }) (fun t =>
        t.cmdIn == [some 0x10000000#32] && t.seq == .rowCheck) = true ∧
      ({ stopped with cmdIn := [some 0x10000000#32] } : State).cmdReady = false := by decide
/-- FaultIsStickyUntilReset, ResetLeavesTheResetValues, ResetReleaseAcceptsNothing. -/
theorem witness_reset_inputs :
    stopped.fault = true ∧ stopped.rstNow = none ∧ stopped.cfg.wf = true ∧
      ({ stopped with rstIn := [some ⟨[1#8, 2#8, 3#8, 4#8], []⟩] } : State).rstNow = some ⟨[1#8, 2#8, 3#8, 4#8], []⟩ ∧
      [1#8, 2#8, 3#8, 4#8].length = stopped.cfg.fbBytes ∧
      ({ idleBlock with inReset := true } : State).rstNow = none := by decide
theorem test_reset_step :
    answers (step { stopped with rstIn := [some ⟨[1#8, 2#8, 3#8, 4#8], []⟩] }) (fun t =>
      bytesOf t == [1#8, 2#8, 3#8, 4#8] && t.cmdReady && t.inReset && t.statusWord == 0x00000000#32) = true := by decide

/-- The invariant holds of a stopped block, of a block between rows, and at the end of a frame. -/
theorem witness_inv_stopped : stopped.Inv :=
  ⟨by decide, by decide, by decide, by decide, rfl, ⟨nofun, fun _ => ⟨rfl, nofun, nofun⟩⟩,
    ⟨rfl, rfl, rfl⟩, nofun⟩
theorem witness_inv_stage : (running .stage1 .rowEmitted .pixel 1#13 1#13).Inv :=
  ⟨by decide, by decide, by decide, by decide, rfl, ⟨fun _ => ⟨rfl, rfl⟩, fun h => by cases h⟩,
    ⟨⟨rfl, by decide, rfl, rfl⟩, by decide⟩, fun _ _ => by decide⟩
theorem witness_inv_start : (running .start .idle .fill 0#13 0#13).Inv :=
  ⟨by decide, by decide, by decide, by decide, rfl, ⟨fun _ => ⟨rfl, rfl⟩, fun h => by cases h⟩,
    ⟨rfl, rfl, by decide⟩, fun _ h => by cases h⟩
theorem witness_inv_end : (running .endFrame .rowEmitted .fill 2#13 3#13).Inv :=
  ⟨by decide, by decide, by decide, by decide, rfl, ⟨fun _ => ⟨rfl, rfl⟩, fun h => by cases h⟩,
    ⟨rfl, by decide, rfl, by decide, by decide⟩, fun _ h => by cases h⟩
/-- StepKeepsTheTraceGrammar: a trace with a frame open, at `S_ROW_CHECK`. -/
theorem witness_traceOk :
    ({ running .rowCheck .frameOpen .pixel 0#13 0#13 with trace := [.startFrame] } : State).traceOk :=
  ⟨.betweenRows 0 none, rfl, rfl⟩
theorem witness_inv_rowCheck :
    ({ running .rowCheck .frameOpen .pixel 0#13 0#13 with trace := [.startFrame] } : State).Inv :=
  ⟨by decide, by decide, by decide, by decide, rfl, ⟨fun _ => ⟨rfl, rfl⟩, fun h => by cases h⟩,
    ⟨⟨rfl, by decide, rfl, rfl⟩, by decide⟩, fun _ _ => by decide⟩
theorem test_grammar :
    TracePos.readAll small .outside (fillFrame small 120#32 true) = some .outside ∧
      TracePos.readAll small .outside (pixelFrame small 120#32 idleBlock.fb true) = some .outside ∧
      TracePos.readAll small .outside [.startFrame, .endFrame] = none := by decide

/-- MicroStepTable, InvalidFrameOperationRaises, RunningCommandCannotBeDisturbed, FlashIsIndependentOfFb,
BitOrderDoesNotReachTheSequencer: a running block, with and without the transport's answer. -/
theorem witness_running (q : Seq) (p : Phase) (m : Mode) (r o : BitVec 13) (hq : q ≠ .idle) :
    (running q p m r o).running ∧ (running q p m r o).ackNow = true ∧
      ({ running q p m r o with ackIn := [false] } : State).ackNow = false ∧ (running q p m r o).noReset ∧
      (running q p m r o).callsReturn :=
  ⟨⟨test_wf_small, rfl, rfl, hq⟩, rfl, rfl, ⟨rfl, rfl⟩, ⟨rfl, rfl⟩⟩
/-- The clauses of MicroStepTable and InvalidFrameOperationRaises at their boundaries: `ROW` = H - 1 and H, `ROWS_OUT`
= H and H + 1, each validity condition met and not met. -/
theorem witness_boundaries :
    (1#13).toNat < small.height ∧ small.height ≤ (2#13).toNat ∧ (2#13).toNat < small.height + 1 ∧
      small.height + 1 ≤ (3#13).toNat ∧
      answers (step (running .rowCheck .rowEmitted .fill 1#13 1#13)) (fun t => t.seq == .compose) = true ∧
      answers (step (running .rowCheck .rowEmitted .fill 2#13 2#13)) (fun t => t.seq == .trail) = true ∧
      answers (step (running .endFrame .rowEmitted .fill 2#13 3#13)) (fun t => t.phase == .frameClosed) = true ∧
      answers (step (running .endFrame .rowEmitted .fill 2#13 2#13)) (fun t => t.fcode == .protocolViolation) = true ∧
      answers (step (running .start .frameOpen .fill 0#13 0#13)) (fun t => t.fcode == .protocolViolation) = true ∧
      answers (step (running .stage1 .idle .fill 0#13 0#13)) (fun t => t.fcode == .protocolViolation) = true := by decide
theorem witness_compose_row :
    (running .compose .rowEmitted .pixel 1#13 1#13).composePixelRow 1 false = .ok [0xAA6A#16, 0xAAAA#16] := by rfl
theorem witness_next_and_cycleCheck :
    answers (step (running .next .frameClosed .fill 2#13 3#13)) (fun t => t.cyc == 0#16 && t.phase == .idle) = true ∧
      answers (step { running .cycleCheck .idle .fill 2#13 3#13 with cyc := 0#16 }) (fun t =>
        !t.busy && t.seq == .idle) = true ∧
      answers (step (running .cycleCheck .idle .fill 2#13 3#13)) (fun t => t.seq == .start) = true := by decide
/-- AtMostTheOnePendingCallIsEmitted, TransportCallsCarryWholeRows. -/
theorem witness_pending_call :
    (running .stage1 .rowEmitted .pixel 1#13 1#13).pendingCall =
        some (.stage (running .stage1 .rowEmitted .pixel 1#13 1#13).scratch) ∧
      (running .trail .rowEmitted .fill 2#13 2#13).pendingCall = some (.writeRow 120#32) ∧
      (running .start .idle .fill 0#13 0#13).tReq = true := by decide
/-- HungTransportLeavesTheBlockStuck, with `witness_inv_start`'s state but for the transport. -/
theorem witness_hung : ({ running .start .idle .fill 0#13 0#13 with ackRest := false } : State).Inv :=
  ⟨by decide, by decide, by decide, by decide, rfl, ⟨fun _ => ⟨rfl, rfl⟩, fun h => by cases h⟩,
    ⟨rfl, rfl, by decide⟩, fun _ h => by cases h⟩
theorem witness_hung_waits :
    answers (step { running .start .idle .fill 0#13 0#13 with ackRest := false }) (fun t =>
      t.seq == .start && t.busy && t.trace == []) = true := by decide
/-- FbIsWrittenOnlyByItsCommands: a step that changes `FB`. -/
theorem witness_fb_changes :
    answers (step (presented small [] 0x28000000#32)) (fun t => decide (t.fb ≠ [])) = true ∧
      (presented small [] 0x28000000#32).rstNow = none := by decide
/-- FrameOperationsHaveTheClosedForm, SequencerRunsTheFrameOperations, FlashRunsToItsEnd, RenderRunsToItsEnd,
ZeroCyclesDriveNothing, RunningCommandEnds. -/
theorem witness_frame_operation :
    (running .start .idle .pixel 0#13 0#13).phase = .idle ∧
      (match driveFillFrame true (running .start .idle .fill 0#13 0#13) with
        | .done _ => true
        | _ => false) = true ∧
      (match drivePixelFrame true (running .start .idle .pixel 0#13 0#13) with
        | .done _ => true
        | _ => false) = true := by decide
theorem witness_noReset : idleBlock.noReset ∧ idleBlock.callsReturn ∧ idleBlock.phase = .idle ∧ idleBlock.rstNow = none :=
  ⟨⟨rfl, rfl⟩, ⟨rfl, rfl⟩, rfl, rfl⟩

/-- A run of `words` on the small geometry, `FB_INIT` as in 95_test_vectors part C. -/
def smallRun (words : List (Option U32)) (ackRest : Bool) : Run where
  cfg := small
  image := ⟨[0x5A#8, 0x5A#8, 0x5A#8, 0x5A#8], []⟩
  presented := words
  acks := []
  ackRest := ackRest

/-- RunHasAResultExactlyWhenOver, RunOfLegalWordsEndsWell: P1 of 95_test_vectors without its RENDER, after a step in
which nothing is presented; it is not over after two steps and is after three. -/
theorem witness_run_with_result :
    (smallRun [none, some 0x10000000#32, some 0x38001003#32] true).resultAt 2 = none ∧
      (smallRun [none, some 0x10000000#32, some 0x38001003#32] true).resultAt 3 =
        some ([(2, 0x08#8)], [], 0x00000000#32) := by decide
theorem witness_legal_words :
    (smallRun [none, some 0x40000000#32, some 0x38001003#32] true).words = [0x40000000#32, 0x38001003#32] ∧
      decode 0x40000000#32 = .instr (.flash false 0#16) ∧
      decode 0x38001003#32 = .instr (.setpx true 1#12 3#12) ∧ small.wf = true ∧ small.fbAttached = true := by decide
/-- NeverAcceptedWordLeavesNoResult, first case: P4 of 95_test_vectors after the word that faults. -/
theorem witness_run_stopped :
    answers ((smallRun [some 0x10000000#32, some 0x38000010#32, some 0x40000001#32] true).after 2) (fun t =>
      t.fault && decide (some 0x40000001#32 ∈ t.cmdIn) && t.statusWord == 0x0000000A#32) = true := by decide
/-- NeverAcceptedWordLeavesNoResult, second case: FLASH on a transport that answers no call. -/
theorem witness_run_hung :
    answers ((smallRun [some 0x40000001#32, some 0x10000000#32] false).after 2) (fun t =>
      t.tReq && t.ackIn == [] && !t.ackRest && decide (some 0x10000000#32 ∈ t.cmdIn)) = true := by decide

theorem reset_wf : State.reset.cfg.wf = true ∧ State.reset.fb.wf = true := by decide

end Sys2Proof.Tests
end

/-! PROOFS. The state and its invariant (10_state): `STATUS`, what a step leaves alone, and what every step keeps. -/

namespace Sys2Proof

/-- The commands that write `FB` (40_pixel_buffer R62 to R64). -/
def Instr.WritesFb (i : Instr) : Prop :=
  i = .clear ∨ (∃ v, i = .fill v) ∨ ∃ v y x, i = .setpx v y x

end Sys2Proof

namespace Sys2Proof.Machine

/-! ### The fields of `STATUS` (10_state R23)

`STATUS` is an append of its fields, so a field is read by dropping the fields below it. -/

theorem statusWord_busy (s : State) : s.statusWord.getLsbD 0 = s.busy :=
  BitVec.getLsbD_append.trans (by simp)

theorem statusWord_fault (s : State) : s.statusWord.getLsbD 1 = s.fault :=
  BitVec.getLsbD_append.trans (BitVec.getLsbD_append.trans (by simp))

@[simp] theorem statusWord_fcode (s : State) : s.statusWord.extractLsb' 2 4 = s.fcode.bits :=
  calc s.statusWord.extractLsb' 2 4
    _ = _ := BitVec.extractLsb'_append_eq_of_le (by decide)
    _ = _ := BitVec.extractLsb'_append_eq_of_le (by decide)
    _ = s.fcode.bits := BitVec.extractLsb'_append_eq_right

@[simp] theorem statusWord_phase (s : State) : s.statusWord.extractLsb' 6 2 = s.phase.bits :=
  calc s.statusWord.extractLsb' 6 2
    _ = _ := BitVec.extractLsb'_append_eq_of_le (by decide)
    _ = _ := BitVec.extractLsb'_append_eq_of_le (by decide)
    _ = _ := BitVec.extractLsb'_append_eq_of_le (by decide)
    _ = s.phase.bits := BitVec.extractLsb'_append_eq_right

@[simp] theorem statusWord_unused (s : State) : s.statusWord.extractLsb' 8 24 = 0#24 :=
  calc s.statusWord.extractLsb' 8 24
    _ = _ := BitVec.extractLsb'_append_eq_of_le (by decide)
    _ = _ := BitVec.extractLsb'_append_eq_of_le (by decide)
    _ = _ := BitVec.extractLsb'_append_eq_of_le (by decide)
    _ = 0#24 := BitVec.extractLsb'_append_eq_left

/-- Settles O28, field by field; the codes of `FCODE` and `PHASE` are the tables of R102 and R18. -/
theorem statusWordLayout : Obligations.StatusWordLayout := by
  intro s
  refine ⟨statusWord_busy s, statusWord_fault s, ?_, ?_, statusWord_unused s⟩
  · rw [statusWord_fcode]; cases s.fcode <;> rfl
  · rw [statusWord_phase]; cases s.phase <;> rfl

/-! ### What a micro-step and a command leave alone -/

/-- No micro-step, wait or ProtocolViolation touches `FB`, the parameters, the operands or the command and reset
inputs (43_frame_driver R88, 44_cycle_controller R100). -/
theorem sequencerStep_frame {s t : State} (h : sequencerStep s = .next t) :
    t.fb = s.fb ∧ t.cfg = s.cfg ∧ t.cfgRowDelay = s.cfgRowDelay ∧ t.mode = s.mode ∧ t.a = s.a ∧
      t.cmdIn = s.cmdIn ∧ t.rstIn = s.rstIn ∧ t.inReset = s.inReset := by
  rcases sequencerStep_cases h with ⟨-, rfl⟩ | ⟨-, -, rfl⟩ | ⟨-, -, rfl⟩ | ⟨-, -, rfl⟩ | ⟨-, -, rfl⟩ |
    ⟨_, -, -, rfl⟩ | ⟨-, rfl⟩ | ⟨-, rfl⟩ | ⟨-, -, rfl⟩ | ⟨-, ⟨-, -, rfl⟩ | ⟨-, rfl⟩ | ⟨-, -, -, rfl⟩ |
      ⟨-, -, -, rfl⟩ | ⟨-, rfl⟩ | ⟨-, rfl⟩ | ⟨-, rfl⟩ | ⟨-, rfl⟩ | ⟨-, -, rfl⟩⟩ <;>
  exact ⟨rfl, rfl, rfl, rfl, rfl, rfl, rfl, rfl⟩

/-- No command writes the configuration, and only three write `FB` (40_pixel_buffer R67). -/
theorem exec_frame {i : Instr} {s t : State} (h : exec i s = .next t) :
    t.cfg = s.cfg ∧ (t.fb ≠ s.fb → i.WritesFb) := by
  obtain ⟨-, ⟨-, rfl⟩ | ⟨-, _, _, _, -, -, rfl⟩ | ⟨-, hi, rfl⟩ | ⟨-, v, hi, rfl⟩ | ⟨-, v, y, x, hi, -, -, rfl⟩ |
    ⟨_, _, -, rfl⟩ | ⟨-, _, _, -, rfl⟩⟩ := exec_cases h
  · exact ⟨rfl, fun hne => absurd rfl hne⟩
  · exact ⟨rfl, fun hne => absurd rfl hne⟩
  · exact ⟨rfl, fun _ => .inl hi⟩
  · exact ⟨rfl, fun _ => .inr (.inl ⟨v, hi⟩)⟩
  · exact ⟨rfl, fun _ => .inr (.inr ⟨v, y, x, hi⟩)⟩
  · exact ⟨rfl, fun hne => absurd rfl hne⟩
  · exact ⟨rfl, fun hne => absurd rfl hne⟩

theorem acceptWord_frame {w : U32} {s t : State} (h : acceptWord w s = .next t) :
    t.cfg = s.cfg ∧ (t.fb ≠ s.fb → ∃ i, decode w = .instr i ∧ i.WritesFb) := by
  rcases acceptWord_cases h with ⟨_, -, rfl⟩ | ⟨i, hd, he⟩
  · exact ⟨rfl, fun hne => absurd rfl hne⟩
  · obtain ⟨hcfg, hfb⟩ := exec_frame he
    exact ⟨hcfg, fun hne => ⟨i, hd, hfb hne⟩⟩

/-- No step changes the configuration (00_scope section 4). -/
theorem step_cfg {s t : State} (h : step s = .next t) : t.cfg = s.cfg := by
  obtain ⟨-, ⟨img, -, rfl⟩ | ⟨-, -, rfl⟩ | ⟨-, -, -, ⟨w, -, -, ha⟩ | ⟨-, rfl⟩⟩ | ⟨-, -, -, hs⟩⟩ := step_cases h
  · rfl
  · rfl
  · exact (acceptWord_frame ha).1
  · rfl
  · exact (sequencerStep_frame hs).2.1

/-- A step without reset that changes `FB` accepted, in `S_IDLE`, a command that writes it (10_state R14, R46). -/
theorem step_writes_fb {s t : State} (h : step s = .next t) (hr : s.rstNow = none) (hne : t.fb ≠ s.fb) :
    s.seq = .idle ∧ s.cmdReady = true ∧ ∃ w, s.cmdNow = some w ∧ ∃ i, decode w = .instr i ∧ i.WritesFb := by
  obtain ⟨-, ⟨img, hi, -⟩ | ⟨-, -, rfl⟩ | ⟨-, -, hq, ⟨w, hw, hc, ha⟩ | ⟨-, rfl⟩⟩ | ⟨-, -, -, hs⟩⟩ := step_cases h
  · rw [hr] at hi; cases hi
  · exact absurd rfl hne
  · exact ⟨hq, hc, w, hw, (acceptWord_frame ha).2 hne⟩
  · exact absurd rfl hne
  · exact absurd (sequencerStep_frame hs).1 hne

/-- Settles O41: what a step accepts is the only thing that can reach `FB`, and nothing reaches the configuration. -/
theorem fbIsWrittenOnlyByItsCommands : Obligations.FbIsWrittenOnlyByItsCommands := by
  intro s t h
  refine ⟨step_cfg h, fun hr hne => ?_⟩
  obtain ⟨hq, hc, w, hw, i, hd, hi⟩ := step_writes_fb h hr hne
  refine ⟨hq, hc, w, hw, ?_⟩
  rcases hi with rfl | ⟨v, rfl⟩ | ⟨v, y, x, rfl⟩
  · exact .inl hd
  · exact .inr (.inl ⟨v, hd⟩)
  · exact .inr (.inr ⟨v, y, x, hd⟩)

/-! ### The control tuple at each micro-state (10_state R19, 43_frame_driver R92) -/

/-- `controlOk` read at the micro-state the block is in. -/
theorem controlOk_at {s : State} {q : Seq} (h : s.controlOk) (hq : s.seq = q) : (s.goto q).controlOk := by
  subst hq; exact h

/-- `BUSY` is 1 exactly while the sequencer runs. -/
theorem controlOk_busy {s : State} (h : s.controlOk) (hq : s.seq ≠ .idle) : s.busy = true := by
  cases e : s.seq with
  | idle => exact absurd e hq
  | cycleCheck => exact (controlOk_at h e).1
  | start => exact (controlOk_at h e).1
  | rowCheck => exact (controlOk_at h e).1.1
  | compose => exact (controlOk_at h e).1.1
  | reorder => exact (controlOk_at h e).1.1
  | stage1 => exact (controlOk_at h e).1.1
  | switch => exact (controlOk_at h e).1.1
  | stage2 => exact (controlOk_at h e).1.1
  | clock => exact (controlOk_at h e).1.1
  | trail => exact (controlOk_at h e).1.1
  | endFrame => exact (controlOk_at h e).1
  | next => exact (controlOk_at h e).1

theorem inFrame_emitValid {s : State} (h : s.inFrame) : s.emitValid = true := by
  obtain ⟨-, -, -, hp⟩ := h
  rw [emitValid_iff, hp]
  split
  · exact .inl rfl
  · exact .inr rfl

/-- Where the sequencer reaches a frame operation its validity condition holds (43_frame_driver R92). -/
theorem controlOk_valid {s : State} (h : s.controlOk) :
    (s.seq = .start → s.startValid = true) ∧ (s.seq = .stage1 → s.emitValid = true) ∧
      (s.seq = .endFrame → s.endValid = true) := by
  refine ⟨fun hq => ?_, fun hq => ?_, fun hq => ?_⟩
  · obtain ⟨-, hp, -⟩ := controlOk_at h hq
    exact (startValid_iff s).2 hp
  · obtain ⟨hf, -⟩ := controlOk_at h hq
    exact inFrame_emitValid hf
  · obtain ⟨-, -, hp, -, ho⟩ := controlOk_at h hq
    exact (endValid_iff s).2 ⟨hp, Nat.le_of_eq ho.symm⟩

theorem toNat_add_one {r : BitVec 13} (h : r.toNat ≤ 4096) : (r + 1#13).toNat = r.toNat + 1 := by
  rw [BitVec.toNat_add]
  exact Nat.mod_eq_of_lt (by simp; omega)

/-- START_FRAME's writes open a frame with no row clocked out (43_frame_driver R82). -/
theorem inFrame_frameOpened {s : State} (hb : s.busy = true) (hc : s.cyc ≠ 0#16) : s.frameOpened.inFrame :=
  ⟨hb, hc, rfl, rfl⟩

/-- A real row clocked out keeps `ROWS_OUT = ROW`, and `ROW` is no longer 0 (43_frame_driver R83, R88). -/
theorem inFrame_clockedOut {s : State} (h : s.inFrame) (hr : s.row.toNat ≤ 4096) :
    s.clockedOut.rowAdvanced.inFrame := by
  obtain ⟨hb, hc, ho, -⟩ := h
  have hne : s.row + 1#13 ≠ 0#13 := fun e => by
    have := congrArg BitVec.toNat e
    rw [toNat_add_one hr] at this
    simp at this
  exact ⟨hb, hc, congrArg (· + 1#13) ho, (if_neg hne).symm⟩

/-- The composed row of a row on the panel has `ROW_WORDS` words (10_state R17). -/
theorem composedRow_length {s : State} {r : Row} (hwf : s.cfg.wf = true) (hr : s.row.toNat < s.cfg.height)
    (h : s.composedRow = .ok r) : r.length = s.cfg.rowWords := by
  cases hm : s.mode with
  | fill =>
    rw [composedRow_fill hm] at h
    cases h
    exact fillRow_length _ _
  | pixel =>
    rw [composedRow_pixel hwf hm hr] at h
    cases h
    exact pixRow_length _ _ _ _

/-! ### The invariant under the named updates -/

namespace State.Inv

variable {s : State}

/-- The invariant does not speak of the environment's inputs. -/
theorem withInputs (h : s.Inv) (cmds : List (Option U32)) (rsts : List (Option ResetImage)) (inReset : Bool)
    (acks : List Bool) :
    ({ s with cmdIn := cmds, rstIn := rsts, inReset := inReset, ackIn := acks } : State).Inv :=
  ⟨h.admitted, h.fbWf, h.fbBelow, h.scratchLength, h.delay, h.faultRegisters, h.control, h.pixelMode⟩

theorem tick (h : s.Inv) : s.tick.Inv := h.withInputs _ _ _ _

theorem popCommand (h : s.Inv) : s.popCommand.Inv := h.withInputs _ _ _ _

theorem released (h : s.Inv) : s.released.Inv := h.withInputs _ _ _ _

theorem ackTaken (h : s.Inv) : s.ackTaken.Inv := h.withInputs _ _ _ _

/-- The reset state meets the invariant whatever the memories hold (70_reset R125 to R127). -/
theorem resetBy (hwf : s.cfg.wf = true) (img : ResetImage) : (s.resetBy img).Inv where
  admitted := hwf
  fbWf := Memory.wf_load _ _
  fbBelow := Memory.below_load _ (Nat.le_refl _)
  scratchLength := by simp [State.resetBy, State.powerOn]
  delay := rfl
  faultRegisters := ⟨fun _ => ⟨rfl, rfl⟩, nofun⟩
  control := ⟨rfl, rfl, rfl⟩
  pixelMode := nofun

/-- A command's fault, taken in `S_IDLE` (60_exceptions R106). -/
theorem raise (h : s.Inv) (hq : s.seq = .idle) {f : FaultCode} (hn : f ≠ .none) (hp : f ≠ .protocolViolation)
    (w : U32) : (s.raise f w).Inv where
  admitted := h.admitted
  fbWf := h.fbWf
  fbBelow := h.fbBelow
  scratchLength := h.scratchLength
  delay := h.delay
  faultRegisters := ⟨nofun, fun _ => ⟨rfl, hn, hp⟩⟩
  control := by
    obtain ⟨-, hphase, hcyc⟩ := controlOk_at h.control hq
    exact ⟨rfl, hphase, hcyc⟩
  pixelMode := nofun

/-- Every byte of `FB` written, none beyond `FB_BYTES` (40_pixel_buffer R62, R64). -/
theorem fbFill (h : s.Inv) (b : U8) : (s.fbFill b).Inv :=
  ⟨h.admitted, Memory.wf_fill _ _ h.fbWf, Memory.below_fill _ h.fbBelow (Nat.le_refl _), h.scratchLength, h.delay,
    h.faultRegisters, h.control, h.pixelMode⟩

/-- A pixel on the panel written (40_pixel_buffer R63). -/
theorem withPixel (h : s.Inv) (v : Bool) {y x : Nat} (hx : x < s.cfg.width) (hy : y < s.cfg.height) :
    (s.withPixel v y x).Inv :=
  ⟨h.admitted, Memory.wf_write _ _ h.fbWf, Memory.below_write _ h.fbBelow (pixelByte_lt h.admitted hx hy),
    h.scratchLength, h.delay, h.faultRegisters, h.control, h.pixelMode⟩

/-- FLASH or RENDER latched by a ready block; RENDER has checked `FB_LEN` (44_cycle_controller R96, R97). -/
theorem latch (h : s.Inv) (hq : s.seq = .idle) (hf : s.fault = false) {m : Mode}
    (hm : m = .pixel → s.cfg.fbAttached = true) (a : Bool) (n : U16) : (s.latch m a n).Inv where
  admitted := h.admitted
  fbWf := h.fbWf
  fbBelow := h.fbBelow
  scratchLength := h.scratchLength
  delay := h.delay
  faultRegisters := ⟨h.faultRegisters.1, fun e => by simp [hf] at e⟩
  control := by
    obtain ⟨-, hphase, -⟩ := controlOk_at h.control hq
    exact ⟨rfl, hphase⟩
  pixelMode := fun _ => hm

/-- Outside `S_IDLE` no fault is recorded. -/
theorem fault_eq_false (h : s.Inv) (hq : s.seq ≠ .idle) : s.fault = false := by
  cases hf : s.fault with
  | false => rfl
  | true => exact absurd (h.faultRegisters.2 hf).1 hq

/-- A micro-step keeps the invariant if it leaves the fault registers and the length of `SCRATCH` alone and its
control tuple is right: `sequencerStep_frame` gives the rest. -/
theorem of_sequencerStep {t : State} (h : s.Inv) (hq : s.seq ≠ .idle) (hs : sequencerStep s = .next t)
    (hfault : t.fault = s.fault ∧ t.fcode = s.fcode ∧ t.finfo = s.finfo)
    (hscratch : t.scratch.length = s.scratch.length) (hcontrol : t.controlOk) : t.Inv := by
  obtain ⟨hfb, hcfg, hdelay, hmode, -⟩ := sequencerStep_frame hs
  obtain ⟨hf, hcode, hinfo⟩ := hfault
  have hok := h.fault_eq_false hq
  constructor
  case admitted => rw [hcfg]; exact h.admitted
  case fbWf => rw [hfb]; exact h.fbWf
  case fbBelow => rw [hfb, hcfg]; exact h.fbBelow
  case scratchLength => rw [hscratch, hcfg]; exact h.scratchLength
  case delay => rw [hdelay, hcfg]; exact h.delay
  case faultRegisters =>
    refine ⟨fun _ => ?_, fun e => ?_⟩
    · rw [hcode, hinfo]; exact h.faultRegisters.1 hok
    · rw [hf, hok] at e; cases e
  case control => exact hcontrol
  case pixelMode => rw [hmode, hcfg]; exact fun _ => h.pixelMode (controlOk_busy h.control hq)

end State.Inv

/-! ### The invariant under commands and micro-steps -/

theorem exec_keeps_inv {i : Instr} {s t : State} (h : s.Inv) (hq : s.seq = .idle) (hf : s.fault = false)
    (he : exec i s = .next t) : t.Inv := by
  obtain ⟨-, ⟨-, rfl⟩ | ⟨-, _, _, _, -, -, rfl⟩ | ⟨-, -, rfl⟩ | ⟨-, _, -, rfl⟩ | ⟨-, v, _, _, -, hx, hy, rfl⟩ |
    ⟨a, n, -, rfl⟩ | ⟨hb, a, n, -, rfl⟩⟩ := exec_cases he
  · exact h.raise hq (by decide) (by decide) _
  · exact h.raise hq (by decide) (by decide) _
  · exact h.fbFill _
  · exact h.fbFill _
  · exact h.withPixel v hx hy
  · exact h.latch (m := .fill) hq hf nofun a n
  · exact h.latch hq hf (fun _ => hb) a n

theorem acceptWord_keeps_inv {w : U32} {s t : State} (h : s.Inv) (hq : s.seq = .idle) (hf : s.fault = false)
    (ha : acceptWord w s = .next t) : t.Inv := by
  rcases acceptWord_cases ha with ⟨_, -, rfl⟩ | ⟨i, -, he⟩
  · exact h.raise hq (by decide) (by decide) _
  · exact exec_keeps_inv h hq hf he

/-- Row by row of the table of 43_frame_driver R88: the control tuple of the next micro-state follows from the
present one's, and ProtocolViolation, which would break the invariant, is excluded by it. -/
theorem sequencerStep_keeps_inv {s t : State} (h : s.Inv) (hidle : s.seq ≠ .idle) (hs : sequencerStep s = .next t) :
    t.Inv := by
  have hc := h.control
  have hH := Config.height_le h.admitted
  rcases sequencerStep_cases hs with ⟨hq, -⟩ | ⟨hq, hcyc, rfl⟩ | ⟨hq, hcyc, rfl⟩ | ⟨hq, hlt, rfl⟩ | ⟨hq, hge, rfl⟩ |
    ⟨r, hq, hr, rfl⟩ | ⟨hq, rfl⟩ | ⟨hv, -⟩ | ⟨-, -, rfl⟩ | ⟨-, ⟨hq, -, rfl⟩ | ⟨hq, rfl⟩ | ⟨hq, -, hm, rfl⟩ |
      ⟨hq, -, hm, rfl⟩ | ⟨hq, rfl⟩ | ⟨hq, rfl⟩ | ⟨hq, rfl⟩ | ⟨hq, rfl⟩ | ⟨hq, -, rfl⟩⟩
  · exact absurd hq hidle
  · -- `S_CYCLE_CHECK`, no cycle left
    obtain ⟨-, hp⟩ := controlOk_at hc hq
    exact h.of_sequencerStep hidle hs ⟨rfl, rfl, rfl⟩ rfl ⟨rfl, hp, hcyc⟩
  · -- `S_CYCLE_CHECK`, another frame
    obtain ⟨hb, hp⟩ := controlOk_at hc hq
    exact h.of_sequencerStep hidle hs ⟨rfl, rfl, rfl⟩ rfl ⟨hb, hp, hcyc⟩
  · -- `S_ROW_CHECK`, another row
    obtain ⟨hf, -⟩ := controlOk_at hc hq
    exact h.of_sequencerStep hidle hs ⟨rfl, rfl, rfl⟩ rfl ⟨hf, hlt⟩
  · -- `S_ROW_CHECK`, every row clocked out
    obtain ⟨hf, hle⟩ := controlOk_at hc hq
    exact h.of_sequencerStep hidle hs ⟨rfl, rfl, rfl⟩ rfl ⟨hf, Nat.le_antisymm hle (Nat.not_lt.1 hge)⟩
  · -- `S_COMPOSE`
    obtain ⟨hf, hlt⟩ := controlOk_at hc hq
    have hlen := (composedRow_length h.admitted hlt hr).trans h.scratchLength.symm
    exact h.of_sequencerStep hidle hs ⟨rfl, rfl, rfl⟩ hlen ⟨hf, hlt⟩
  · -- `S_NEXT`
    obtain ⟨hb, -⟩ := controlOk_at hc hq
    exact h.of_sequencerStep hidle hs ⟨rfl, rfl, rfl⟩ rfl ⟨hb, rfl⟩
  · -- ProtocolViolation
    obtain ⟨hstart, hstage, hend⟩ := controlOk_valid hc
    rcases hv with ⟨hq, hv⟩ | ⟨hq, hv⟩ | ⟨hq, hv⟩
    · simp [hstart hq] at hv
    · simp [hstage hq] at hv
    · simp [hend hq] at hv
  · exact h.ackTaken
  · -- `S_START`
    obtain ⟨hb, -, hcyc⟩ : s.busy = true ∧ s.phase = .idle ∧ s.cyc ≠ 0#16 := controlOk_at hc hq
    exact h.of_sequencerStep hidle hs ⟨rfl, rfl, rfl⟩ rfl ⟨inFrame_frameOpened hb hcyc, Nat.zero_le _⟩
  · -- `S_REORDER`
    obtain ⟨hf, hlt⟩ := controlOk_at hc hq
    exact h.of_sequencerStep hidle hs ⟨rfl, rfl, rfl⟩ (reorderRow_length _ _) ⟨hf, hlt⟩
  · -- `S_STAGE1` of a pixel frame
    obtain ⟨hf, hlt⟩ := controlOk_at hc hq
    exact h.of_sequencerStep hidle hs ⟨rfl, rfl, rfl⟩ rfl ⟨hf, hlt, hm⟩
  · -- `S_STAGE1` of a fill frame
    obtain ⟨hf, hlt⟩ := controlOk_at hc hq
    exact h.of_sequencerStep hidle hs ⟨rfl, rfl, rfl⟩ rfl ⟨hf, hlt⟩
  · -- `S_SWITCH`
    obtain ⟨hf, hlt, hm⟩ := controlOk_at hc hq
    exact h.of_sequencerStep hidle hs ⟨rfl, rfl, rfl⟩ rfl ⟨hf, hlt, hm⟩
  · -- `S_STAGE2`
    obtain ⟨hf, hlt, -⟩ := controlOk_at hc hq
    exact h.of_sequencerStep hidle hs ⟨rfl, rfl, rfl⟩ rfl ⟨hf, hlt⟩
  · -- `S_CLOCK`
    obtain ⟨hf, hlt⟩ : s.inFrame ∧ s.row.toNat < s.cfg.height := controlOk_at hc hq
    have hle : s.row.toNat ≤ 4096 := (Nat.le_of_lt hlt).trans hH
    exact h.of_sequencerStep hidle hs ⟨rfl, rfl, rfl⟩ rfl ⟨inFrame_clockedOut hf hle, (toNat_add_one hle).trans_le hlt⟩
  · -- `S_TRAIL`
    obtain ⟨⟨hb, hcyc, ho, -⟩, hrow⟩ : s.inFrame ∧ s.row.toNat = s.cfg.height := controlOk_at hc hq
    have hout : (s.rowsOut + 1#13).toNat = s.cfg.height + 1 := by
      rw [ho, toNat_add_one (hrow.trans_le hH), hrow]
    exact h.of_sequencerStep hidle hs ⟨rfl, rfl, rfl⟩ rfl ⟨hb, hcyc, rfl, hrow, hout⟩
  · -- `S_END`
    obtain ⟨hb, hcyc, -⟩ := controlOk_at hc hq
    exact h.of_sequencerStep hidle hs ⟨rfl, rfl, rfl⟩ rfl ⟨hb, hcyc, rfl⟩

/-- Settles O44, by what a step can do: a reset, its release, an accepted word, a wait in `S_IDLE`, a micro-step. -/
theorem stepKeepsTheInvariant : Obligations.StepKeepsTheInvariant := by
  intro s t h hs
  obtain ⟨hwf, ⟨img, -, rfl⟩ | ⟨-, -, rfl⟩ | ⟨-, -, hq, ⟨w, -, hready, ha⟩ | ⟨-, rfl⟩⟩ | ⟨-, -, hq, hseq⟩⟩ :=
    step_cases hs
  · exact State.Inv.resetBy (s := s.tick) hwf img
  · exact h.tick.released
  · have hf : s.fault = false := by
      simp only [State.cmdReady, Bool.and_eq_true, Bool.not_eq_true'] at hready
      exact hready.2
    exact acceptWord_keeps_inv h.tick.popCommand hq hf ha
  · exact h.tick
  · exact sequencerStep_keeps_inv h.tick hq hseq

end Sys2Proof.Machine

/-! PROOFS. The pixel buffer's bit order (20_memory R34, R35): where a pixel lands in its row, and how far
`FB_BIT_ORDER` reaches. -/

namespace Sys2Proof.Machine

/-! ### A pixel's drive symbol in its row -/

/-- Pair `k` of a table entry is the symbol of bit `k` of the byte (41_expand_table R70). -/
theorem expand_pair (b : U8) {k : Nat} (hk : k < 8) : (expand b).extractLsb' (2 * k) 2 = symbol (b.getLsbD k) := by
  obtain ⟨hlow, hhigh⟩ := expand_bits b ⟨k, hk⟩
  apply BitVec.eq_of_getLsbD_eq
  intro i hi
  interval_cases i
  · rw [BitVec.getLsbD_extractLsb', Nat.add_zero, hlow]
    cases b.getLsbD k <;> rfl
  · rw [BitVec.getLsbD_extractLsb', hhigh]
    cases b.getLsbD k <;> rfl

/-- The inverse index shows every bit of the byte complemented (41_expand_table R71, 42_row_compositor R75). -/
theorem lutIndex_getLsbD (inv : Bool) (b : U8) {k : Nat} (hk : k < 8) :
    (lutIndex inv b).getLsbD k = (b.getLsbD k != inv) := by
  cases inv
  · simp [lutIndex]
  · simp [lutIndex, complement_eq, hk]

/-- Word `j` of a pixel row (43_frame_driver R89). -/
theorem pixRow_getElem? (c : Config) (fb : Memory) (y : Nat) (inv : Bool) {j : Nat} (hj : j < c.rowWords) :
    (pixRow c fb y inv)[j]? = some (lut (lutIndex inv (fb.read (rowBase c y + j)))) := by
  simp [pixRow, hj]

/-- At `lsb0` the bit of pixel `X` is `X mod 8` (40_pixel_buffer R63). -/
theorem pixelBit_lsb0 {c : Config} (h : c.wf = true) (ho : c.fbBitOrder = .lsb0) (y x : Nat) :
    pixelBit c y x = x % 8 := by
  simp only [pixelBit, ho, pixelIndex_mod h]

/-- At `msb0` it is counted from the other end of the byte (20_memory R34). -/
theorem pixelBit_msb0 {c : Config} (h : c.wf = true) (ho : c.fbBitOrder = .msb0) (y x : Nat) :
    pixelBit c y x = 7 - x % 8 := by
  simp only [pixelBit, ho, pixelIndex_mod h]

/-- Settles O33: the pixel's byte is byte `x / 8` of its row's slice of `FB`, and the table substitutes its bit. -/
theorem pixelLandsInItsPair : Obligations.PixelLandsInItsPair := by
  intro s x y inv hwf hx hy
  have hk : pixelBit s.cfg y x < 8 := pixelBit_lt s.cfg y x
  have hj : x / 8 < s.cfg.rowWords := by
    have := Config.width_eq hwf
    rw [Config.rowWords_eq hwf]
    omega
  refine ⟨_, _, composePixelRow_ok hwf hy inv, pixRow_getElem? s.cfg s.fb y inv hj, ?_,
    fun ho => pixelBit_lsb0 hwf ho y x, fun ho => pixelBit_msb0 hwf ho y x⟩
  rw [← pixelByte_eq hwf, lut, expand_pair _ hk, lutIndex_getLsbD inv _ hk]
  rfl

/-! ### The sequencer does not read `FB_BIT_ORDER` -/

/-- The block with the other parameters and `FB` as they are, under the bit order `o`. -/
def State.withBitOrder (o : BitOrder) (s : State) : State := { s with cfg := { s.cfg with fbBitOrder := o } }

@[simp] theorem State.withBitOrder_seq (o : BitOrder) (s : State) : (s.withBitOrder o).seq = s.seq := rfl

/-- The same of what a micro-step answers. -/
def Out.withBitOrder (o : BitOrder) : Out → Out
  | .next s => .next (s.withBitOrder o)
  | .fault f => .fault f
  | .refused r => .refused r

/-- Composing a row reads whole bytes of `FB`, in either mode. -/
theorem composedRow_withBitOrder (o : BitOrder) (s : State) : (s.withBitOrder o).composedRow = s.composedRow := rfl

/-- A call whose writes do not read the bit order answers the same under another. -/
theorem call_withBitOrder (o : BitOrder) (s : State) (e : Event) {f : State → State}
    (hf : ∀ u : State, f (u.withBitOrder o) = (f u).withBitOrder o) :
    (s.withBitOrder o).call e f = Out.withBitOrder o (s.call e f) := by
  cases ha : s.ackNow
  · rw [call_wait e f ha]; exact call_wait e f ha
  · calc (s.withBitOrder o).call e f
      _ = .next (f ((s.ackTaken.emit e).withBitOrder o)) := call_ack e f ha
      _ = .next ((f (s.ackTaken.emit e)).withBitOrder o) := by rw [hf]
      _ = Out.withBitOrder o (s.call e f) := by rw [call_ack e f ha]; rfl

/-- A choice that does not read the bit order, between answers that do not. -/
theorem ite_withBitOrder (o : BitOrder) (c : Prop) [Decidable c] {x y x' y' : Out}
    (hx : x' = Out.withBitOrder o x) (hy : y' = Out.withBitOrder o y) :
    (if c then x' else y') = Out.withBitOrder o (if c then x else y) := by
  rw [hx, hy, ← apply_ite]

/-- Every row of the table of 43_frame_driver R88 is the same under another bit order. -/
theorem sequencerStep_withBitOrder (o : BitOrder) (s : State) :
    sequencerStep (s.withBitOrder o) = Out.withBitOrder o (sequencerStep s) := by
  unfold sequencerStep
  rw [State.withBitOrder_seq]
  cases s.seq
  case idle => rfl
  case cycleCheck => exact ite_withBitOrder o _ rfl rfl
  case start => exact ite_withBitOrder o _ (call_withBitOrder o s _ fun _ => rfl) rfl
  case rowCheck => exact ite_withBitOrder o _ rfl rfl
  case compose =>
    unfold seqCompose
    rw [composedRow_withBitOrder]
    cases s.composedRow <;> rfl
  case reorder => exact call_withBitOrder o s _ fun _ => rfl
  case stage1 => exact ite_withBitOrder o _ (call_withBitOrder o s _ fun _ => rfl) rfl
  case switch => exact call_withBitOrder o s _ fun _ => rfl
  case stage2 => exact call_withBitOrder o s _ fun _ => rfl
  case clock => exact call_withBitOrder o s _ fun _ => rfl
  case trail => exact call_withBitOrder o s _ fun _ => rfl
  case endFrame => exact ite_withBitOrder o _ (call_withBitOrder o s _ fun _ => rfl) rfl
  case next => rfl

/-- The step in which `rst` is released (70_reset R124). -/
theorem step_of_inReset {s : State} (hwf : s.cfg.wf = true) (hr : s.rstNow = none) (hi : s.inReset = true) :
    step s = .next s.tick.released := by
  unfold step blockStep
  rw [admitted_next hwf]
  simp only [hr, hi, if_true]

/-- Settles O56: outside `S_IDLE` a step without `rst` is the release of a reset or a micro-step, and neither reads
the bit order. -/
theorem bitOrderDoesNotReachTheSequencer : Obligations.BitOrderDoesNotReachTheSequencer := by
  intro s t o hq hr h
  change step (s.withBitOrder o) = .next (t.withBitOrder o)
  obtain ⟨hwf, ⟨img, hi, -⟩ | ⟨-, hi, rfl⟩ | ⟨-, -, hidle, -⟩ | ⟨-, hi, -, hs⟩⟩ := step_cases h
  · rw [hr] at hi; cases hi
  · exact step_of_inReset hwf hr hi
  · exact absurd hidle hq
  · calc step (s.withBitOrder o)
      _ = sequencerStep (s.tick.withBitOrder o) := step_of_running hwf hr hi hq
      _ = Out.withBitOrder o (sequencerStep s.tick) := sequencerStep_withBitOrder o s.tick
      _ = .next (t.withBitOrder o) := by rw [hs]; rfl

end Sys2Proof.Machine

/-! PROOFS. The encoding (30_encoding): fields of a word, the opcode map, the decoder against the encoder, the
assembler, and the acceptance of a word. -/

namespace Sys2Proof

/-! ### Fields of a word (R49, R50)

A mask is a union of whole fields, so a word under a mask is read off field by field. The lemmas of this section are
the only ones that look at single bits. -/

/-- The mask of the `len` bits from bit `lo` on. -/
def fieldMask (lo len : Nat) : U32 := fieldAt (BitVec.allOnes len) lo

theorem getLsbD_fieldAt {n : Nat} (v : BitVec n) (lo i : Nat) :
    (fieldAt v lo).getLsbD i = (decide (i < 32) && decide (lo ≤ i) && v.getLsbD (i - lo)) := by
  by_cases hi : i < 32 <;> by_cases hlo : lo ≤ i <;> simp [fieldAt, hi, hlo]

/-- A field read where it was put. -/
@[simp] theorem extractLsb'_fieldAt_same {n : Nat} (v : BitVec n) (lo : Nat) (h : lo + n ≤ 32) :
    (fieldAt v lo).extractLsb' lo n = v := by
  apply BitVec.eq_of_getLsbD_eq
  intro i hi
  have : lo + i < 32 := by omega
  rw [BitVec.getLsbD_extractLsb', getLsbD_fieldAt]
  simp [hi, this]

/-- A field reads 0 where another was put. -/
theorem extractLsb'_fieldAt_disjoint {n : Nat} (v : BitVec n) (lo lo' len : Nat)
    (h : lo' + len ≤ lo ∨ lo + n ≤ lo') : (fieldAt v lo).extractLsb' lo' len = 0#len := by
  apply BitVec.eq_of_getLsbD_eq
  intro i hi
  rw [BitVec.getLsbD_extractLsb', getLsbD_fieldAt, BitVec.getLsbD_zero]
  rcases h with h | h
  · have : ¬lo ≤ lo' + i := by omega
    simp [this]
  · have : n ≤ lo' + i - lo := by omega
    simp [BitVec.getLsbD_of_ge _ _ this]

/-- A word under the mask of a field is that field. -/
theorem and_fieldMask (w : U32) (lo len : Nat) : w &&& fieldMask lo len = fieldAt (w.extractLsb' lo len) lo := by
  apply BitVec.eq_of_getLsbD_eq
  intro i _
  by_cases hlo : lo ≤ i
  · simp [fieldMask, getLsbD_fieldAt, BitVec.getLsbD_extractLsb', Nat.add_sub_cancel' hlo, Bool.and_comm,
      Bool.and_left_comm, Bool.and_assoc]
  · simp [fieldMask, getLsbD_fieldAt, hlo]

/-- What a masked word says of a field that lies wholly in the mask. -/
theorem extractLsb'_of_and_eq {w m p : U32} (h : w &&& m = p) (lo len : Nat)
    (hm : m.extractLsb' lo len = BitVec.allOnes len) : w.extractLsb' lo len = p.extractLsb' lo len := by
  rw [← h, BitVec.extractLsb'_and, hm, BitVec.and_allOnes]

theorem or_and_not (w m : U32) : w &&& m ||| w &&& ~~~m = w := by
  rw [← BitVec.and_or_distrib_left, BitVec.or_not_self, BitVec.and_allOnes]

theorem or_and_self (m f : U32) : (m ||| f) &&& m = m := by
  ext i
  simpa using Or.inl

/-- Bit 27 as a field of one bit. -/
theorem ofBool_fieldFlag (w : U32) : BitVec.ofBool (fieldFlag w) = w.extractLsb' 27 1 := by
  apply BitVec.eq_of_getLsbD_eq
  intro i hi
  simp [fieldFlag, Nat.lt_one_iff.1 hi]

theorem fieldFlag_eq (w : U32) : fieldFlag w = (w.extractLsb' 27 1).getLsbD 0 := by simp [fieldFlag]

/-! ### The rows of the opcode map (R51) -/

theorem selects_iff (r : OpRow) (w : U32) : r.selects w = true ↔ w &&& r.mask = r.pattern := decide_eq_true_iff

theorem row_mem_opcodeMap (i : Instr) : i.row ∈ opcodeMap := by cases i <;> simp [Instr.row, opcodeMap]

/-- Every row fixes the whole of `OP`. -/
theorem fieldOp_of_selects {r : OpRow} (hr : r ∈ opcodeMap) {w : U32} (h : r.selects w = true) :
    fieldOp w = fieldOp r.pattern :=
  have hmask : ∀ r ∈ opcodeMap, r.mask.extractLsb' 28 4 = BitVec.allOnes 4 := by decide
  extractLsb'_of_and_eq ((selects_iff r w).1 h) 28 4 (hmask r hr)

/-- The match sets are disjoint, since no two rows have one `OP`. -/
theorem row_unique_of_selects {r r' : OpRow} (hr : r ∈ opcodeMap) (hr' : r' ∈ opcodeMap) {w : U32}
    (h : r.selects w = true) (h' : r'.selects w = true) : r = r' :=
  have hop : ∀ r ∈ opcodeMap, ∀ r' ∈ opcodeMap, fieldOp r.pattern = fieldOp r'.pattern → r = r' := by decide
  hop r hr r' hr' ((fieldOp_of_selects hr h).symm.trans (fieldOp_of_selects hr' h'))

/-- A word that one row selects is selected by no other. -/
theorem selects_eq_false_of_selects {r r' : OpRow} {w : U32} (h : r.selects w = true)
    (hrows : r ∈ opcodeMap ∧ r' ∈ opcodeMap ∧ r ≠ r') : r'.selects w = false := by
  obtain ⟨hr, hr', hne⟩ := hrows
  exact Bool.eq_false_iff.2 fun h' => hne (row_unique_of_selects hr hr' h h')

/-- A command's word selects the command's row. -/
theorem row_selects_encode (i : Instr) : i.row.selects (encode i) = true := by
  cases i with
  | clear => exact Laws.SelectedByItsRow.clear
  | fill v => exact Laws.SelectedByItsRow.fill v
  | setpx v y x => exact Laws.SelectedByItsRow.setpx v y x
  | flash a n => exact Laws.SelectedByItsRow.flash a n
  | render a n => exact Laws.SelectedByItsRow.render a n

/-! ### What the decoder reads from a word that a row selects (R51, R55) -/

theorem decode_of_rowClear {w : U32} (h : rowClear.selects w = true) : decode w = .instr .clear := if_pos h

theorem decode_of_rowFill {w : U32} (h : rowFill.selects w = true) : decode w = .instr (.fill (fieldFlag w)) := by
  have hclear : rowClear.selects w = false := selects_eq_false_of_selects h (by decide)
  simp [decode, hclear, h]

theorem decode_of_rowSetpx {w : U32} (h : rowSetpx.selects w = true) :
    decode w = .instr (.setpx (fieldFlag w) (fieldY w) (fieldX w)) := by
  have hclear : rowClear.selects w = false := selects_eq_false_of_selects h (by decide)
  have hfill : rowFill.selects w = false := selects_eq_false_of_selects h (by decide)
  simp [decode, hclear, hfill, h]

theorem decode_of_rowFlash {w : U32} (h : rowFlash.selects w = true) :
    decode w = .instr (.flash (fieldFlag w) (fieldN w)) := by
  have hclear : rowClear.selects w = false := selects_eq_false_of_selects h (by decide)
  have hfill : rowFill.selects w = false := selects_eq_false_of_selects h (by decide)
  have hsetpx : rowSetpx.selects w = false := selects_eq_false_of_selects h (by decide)
  simp [decode, hclear, hfill, hsetpx, h]

theorem decode_of_rowRender {w : U32} (h : rowRender.selects w = true) :
    decode w = .instr (.render (fieldFlag w) (fieldN w)) := by
  have hclear : rowClear.selects w = false := selects_eq_false_of_selects h (by decide)
  have hfill : rowFill.selects w = false := selects_eq_false_of_selects h (by decide)
  have hsetpx : rowSetpx.selects w = false := selects_eq_false_of_selects h (by decide)
  have hflash : rowFlash.selects w = false := selects_eq_false_of_selects h (by decide)
  simp [decode, hclear, hfill, hsetpx, hflash, h]

/-- A row that a word selects is the row of the command it decodes to. -/
theorem decode_of_selects {r : OpRow} (hr : r ∈ opcodeMap) {w : U32} (h : r.selects w = true) :
    ∃ i, decode w = .instr i ∧ i.row = r := by
  simp only [opcodeMap, List.mem_cons, List.not_mem_nil, or_false] at hr
  rcases hr with rfl | rfl | rfl | rfl | rfl
  · exact ⟨_, decode_of_rowClear h, rfl⟩
  · exact ⟨_, decode_of_rowFill h, rfl⟩
  · exact ⟨_, decode_of_rowSetpx h, rfl⟩
  · exact ⟨_, decode_of_rowFlash h, rfl⟩
  · exact ⟨_, decode_of_rowRender h, rfl⟩

/-! ### Decoding an encoded command -/

theorem fieldFlag_formatV (op : BitVec 4) (v : Bool) : fieldFlag (formatV op v) = v := by
  simp [fieldFlag_eq, formatV, BitVec.extractLsb'_or, extractLsb'_fieldAt_disjoint]

theorem fieldFlag_formatP (op : BitVec 4) (v : Bool) (y x : BitVec 12) : fieldFlag (formatP op v y x) = v := by
  simp [fieldFlag_eq, formatP, BitVec.extractLsb'_or, extractLsb'_fieldAt_disjoint]

theorem fieldY_formatP (op : BitVec 4) (v : Bool) (y x : BitVec 12) : fieldY (formatP op v y x) = y := by
  simp [fieldY, formatP, BitVec.extractLsb'_or, extractLsb'_fieldAt_disjoint]

theorem fieldX_formatP (op : BitVec 4) (v : Bool) (y x : BitVec 12) : fieldX (formatP op v y x) = x := by
  simp [fieldX, formatP, BitVec.extractLsb'_or, extractLsb'_fieldAt_disjoint]

theorem fieldFlag_formatC (op : BitVec 4) (a : Bool) (n : U16) : fieldFlag (formatC op a n) = a := by
  simp [fieldFlag_eq, formatC, BitVec.extractLsb'_or, extractLsb'_fieldAt_disjoint]

theorem fieldN_formatC (op : BitVec 4) (a : Bool) (n : U16) : fieldN (formatC op a n) = n := by
  simp [fieldN, formatC, BitVec.extractLsb'_or, extractLsb'_fieldAt_disjoint]

/-- Settles O1: the word selects the command's row, and each operand is read where its format puts it. -/
theorem decodeOfEncodeIsTheCommand : Obligations.DecodeOfEncodeIsTheCommand := by
  intro i
  have h := row_selects_encode i
  cases i with
  | clear => exact decode_of_rowClear h
  | fill v => rw [decode_of_rowFill h, encode, fieldFlag_formatV]
  | setpx v y x => rw [decode_of_rowSetpx h, encode, fieldFlag_formatP, fieldY_formatP, fieldX_formatP]
  | flash a n => rw [decode_of_rowFlash h, encode, fieldFlag_formatC, fieldN_formatC]
  | render a n => rw [decode_of_rowRender h, encode, fieldFlag_formatC, fieldN_formatC]

/-! ### Encoding a decoded word -/

/-- The operand fields of a command, each at its place in the word (R49). -/
def Instr.operandBits : Instr → U32
  | .clear => 0#32
  | .fill v => fieldAt (BitVec.ofBool v) 27
  | .setpx v y x => fieldAt (BitVec.ofBool v) 27 ||| fieldAt y 12 ||| fieldAt x 0
  | .flash a n => fieldAt (BitVec.ofBool a) 27 ||| fieldAt n 0
  | .render a n => fieldAt (BitVec.ofBool a) 27 ||| fieldAt n 0

/-- A command's word is its row's match with the operands put in. -/
theorem encode_eq (i : Instr) : encode i = i.row.pattern ||| i.operandBits := by
  cases i with
  | clear => rfl
  | fill v => rfl
  | setpx v y x => simp only [encode, formatP, Instr.operandBits, BitVec.or_assoc]; rfl
  | flash a n => simp only [encode, formatC, Instr.operandBits, BitVec.or_assoc]; rfl
  | render a n => simp only [encode, formatC, Instr.operandBits, BitVec.or_assoc]; rfl

/-- The bit that the row of format V leaves open is its operand. -/
theorem and_operandMaskV (w : U32) : w &&& ~~~0xF7FFFFFF#32 = fieldAt (BitVec.ofBool (fieldFlag w)) 27 := by
  have hmask : ~~~0xF7FFFFFF#32 = fieldMask 27 1 := by decide
  rw [hmask, and_fieldMask, ofBool_fieldFlag]

/-- The same for format C: a row's mask leaves its operand fields open. -/
theorem and_operandMaskC (w : U32) :
    w &&& ~~~0xF7FF0000#32 = fieldAt (BitVec.ofBool (fieldFlag w)) 27 ||| fieldAt (fieldN w) 0 := by
  have hmask : ~~~0xF7FF0000#32 = fieldMask 27 1 ||| fieldMask 0 16 := by decide
  rw [hmask, BitVec.and_or_distrib_left, and_fieldMask, and_fieldMask, ofBool_fieldFlag, fieldN]

/-- The same for format P. -/
theorem and_operandMaskP (w : U32) :
    w &&& ~~~0xF7000000#32 =
      fieldAt (BitVec.ofBool (fieldFlag w)) 27 ||| fieldAt (fieldY w) 12 ||| fieldAt (fieldX w) 0 := by
  have hmask : ~~~0xF7000000#32 = fieldMask 27 1 ||| fieldMask 12 12 ||| fieldMask 0 12 := by decide
  rw [hmask, BitVec.and_or_distrib_left, BitVec.and_or_distrib_left, and_fieldMask, and_fieldMask, and_fieldMask,
    ofBool_fieldFlag, fieldY, fieldX]

/-- Everything a decoded command says of its word: the row it selects, and the operands outside that row's mask. -/
theorem decode_instr {w : U32} {i : Instr} (h : decode w = .instr i) :
    i.row.selects w = true ∧ i.operandBits = w &&& ~~~i.row.mask := by
  unfold decode at h
  split_ifs at h with hclear hfill hsetpx hflash hrender <;> cases h
  · exact ⟨hclear, (BitVec.and_zero (x := w)).symm⟩
  · exact ⟨hfill, (and_operandMaskV w).symm⟩
  · exact ⟨hsetpx, (and_operandMaskP w).symm⟩
  · exact ⟨hflash, (and_operandMaskC w).symm⟩
  · exact ⟨hrender, (and_operandMaskC w).symm⟩

theorem encode_of_decode {w : U32} {i : Instr} (h : decode w = .instr i) : encode i = w := by
  obtain ⟨hrow, hops⟩ := decode_instr h
  calc encode i
    _ = i.row.pattern ||| i.operandBits := encode_eq i
    _ = w &&& i.row.mask ||| w &&& ~~~i.row.mask := by rw [hops, (selects_iff _ _).1 hrow]
    _ = w := or_and_not w i.row.mask

/-- Settles O2: a command determines its word, because encoding it gives the word back. -/
theorem decoderTotalAndInjective : Obligations.DecoderTotalAndInjective := by
  refine ⟨fun w => ?_, fun w w' i h h' => ?_, fun w i h => encode_of_decode h⟩
  · cases decode w with
    | instr i => exact .inl ⟨i, rfl⟩
    | illegal why => exact .inr ⟨why, rfl⟩
  · exact (encode_of_decode h).symm.trans (encode_of_decode h')

/-- Settles O3: the map's rows are told apart by `OP`, and the decoder tries them one by one. -/
theorem opcodeMapSelectsTheCommand : Obligations.OpcodeMapSelectsTheCommand := by
  refine ⟨rfl, fun w r r' hr hr' h h' => ?_, fun w r hr h => ?_, fun w i h => ?_⟩
  · exact row_unique_of_selects hr hr' ((selects_iff r w).2 h) ((selects_iff r' w).2 h')
  · exact decode_of_selects hr ((selects_iff r w).2 h)
  · exact (selects_iff i.row w).1 (decode_instr h).1

/-- Settles O5, by running the decoder on the five words. -/
theorem decodesTheSpecsWords : Obligations.DecodesTheSpecsWords := by
  unfold Obligations.DecodesTheSpecsWords
  decide

/-! ### Illegal words (R53) -/

/-- A word is illegal when no row selects it. -/
theorem decode_illegal_iff (w : U32) :
    (∃ why, decode w = .illegal why) ↔ ∀ r ∈ opcodeMap, ¬r.selects w = true := by
  constructor
  · rintro ⟨why, h⟩ r hr hsel
    obtain ⟨i, hi, -⟩ := decode_of_selects hr hsel
    rw [hi] at h
    cases h
  · intro h
    cases hw : decode w with
    | instr i => exact absurd (decode_instr hw).1 (h i.row (row_mem_opcodeMap i))
    | illegal why => exact ⟨why, rfl⟩

@[simp] theorem fieldAt_zero (n lo : Nat) : fieldAt 0#n lo = 0#32 := by simp [fieldAt]

/-! A row's mask is `OP` and the fixed zeros of its format (R49): the word selects the row exactly when `OP` is the
row's and each of those zeros is 0. -/

theorem and_opMask_eq_iff (w : U32) (op : BitVec 4) : w &&& fieldMask 28 4 = fieldAt op 28 ↔ fieldOp w = op := by
  rw [and_fieldMask]
  refine ⟨fun h => ?_, fun h => congrArg (fieldAt · 28) h⟩
  simpa [fieldOp] using congrArg (BitVec.extractLsb' 28 4) h

/-- A mask made larger by a field of zeros. -/
theorem and_or_fieldMask_eq_iff {m p : U32} (w : U32) (lo len : Nat) (hlen : lo + len ≤ 32) (hm : p &&& m = p)
    (hp : p.extractLsb' lo len = 0#len) :
    w &&& (m ||| fieldMask lo len) = p ↔ w &&& m = p ∧ w.extractLsb' lo len = 0#len := by
  constructor
  · intro h
    constructor
    · calc w &&& m
        _ = w &&& (m ||| fieldMask lo len) &&& m := by rw [BitVec.and_assoc, or_and_self]
        _ = p := by rw [h, hm]
    · have hfull : (m ||| fieldMask lo len).extractLsb' lo len = BitVec.allOnes len := by
        rw [BitVec.extractLsb'_or, fieldMask, extractLsb'_fieldAt_same _ _ hlen, BitVec.or_allOnes]
      rw [extractLsb'_of_and_eq h lo len hfull, hp]
  · rintro ⟨h, hzero⟩
    rw [BitVec.and_or_distrib_left, h, and_fieldMask, hzero, fieldAt_zero, BitVec.or_zero]

/-- Format P: `OP` and the zeros of bits 26:24. -/
theorem and_maskP_eq_iff (w : U32) (op : BitVec 4) :
    w &&& 0xF7000000#32 = fieldAt op 28 ↔ fieldOp w = op ∧ w.extractLsb' 24 3 = 0#3 := by
  have hmask : 0xF7000000#32 = fieldMask 28 4 ||| fieldMask 24 3 := by decide
  rw [hmask, and_or_fieldMask_eq_iff w 24 3 (by decide) (by revert op; decide) (by revert op; decide),
    and_opMask_eq_iff]

/-- Format C: also the zeros of bits 23:16. -/
theorem and_maskC_eq_iff (w : U32) (op : BitVec 4) :
    w &&& 0xF7FF0000#32 = fieldAt op 28 ↔
      (fieldOp w = op ∧ w.extractLsb' 24 3 = 0#3) ∧ w.extractLsb' 16 8 = 0#8 := by
  have hmask : 0xF7FF0000#32 = 0xF7000000#32 ||| fieldMask 16 8 := by decide
  rw [hmask, and_or_fieldMask_eq_iff w 16 8 (by decide) (by revert op; decide) (by revert op; decide),
    and_maskP_eq_iff]

/-- Format V: also the zeros of bits 23:0. -/
theorem and_maskV_eq_iff (w : U32) (op : BitVec 4) :
    w &&& 0xF7FFFFFF#32 = fieldAt op 28 ↔
      (fieldOp w = op ∧ w.extractLsb' 24 3 = 0#3) ∧ w.extractLsb' 0 24 = 0#24 := by
  have hmask : 0xF7FFFFFF#32 = 0xF7000000#32 ||| fieldMask 0 24 := by decide
  rw [hmask, and_or_fieldMask_eq_iff w 0 24 (by decide) (by revert op; decide) (by revert op; decide),
    and_maskP_eq_iff]

/-- Format Z: bit 27 is a zero too. -/
theorem and_maskZ_eq_iff (w : U32) (op : BitVec 4) :
    w &&& 0xFFFFFFFF#32 = fieldAt op 28 ↔
      ((fieldOp w = op ∧ w.extractLsb' 24 3 = 0#3) ∧ w.extractLsb' 0 24 = 0#24) ∧ w.getLsbD 27 = false := by
  have hmask : 0xFFFFFFFF#32 = 0xF7FFFFFF#32 ||| fieldMask 27 1 := by decide
  have hflag : w.extractLsb' 27 1 = 0#1 ↔ w.getLsbD 27 = false := by
    rw [← ofBool_fieldFlag]; exact BitVec.ofBool_eq_iff_eq (b' := false)
  rw [hmask, and_or_fieldMask_eq_iff w 27 1 (by decide) (by revert op; decide) (by revert op; decide),
    and_maskV_eq_iff, hflag]

/-- `OP` is legal in five values, and each belongs to one format. -/
theorem opcode_cases (op : BitVec 4) :
    (op = 0#4 ∨ 6 ≤ op.toNat) ∧ op ≠ 1#4 ∧ op ≠ 2#4 ∧ op ≠ 3#4 ∧ op ≠ 4#4 ∧ op ≠ 5#4 ∨
      op = 1#4 ∨ op = 2#4 ∨ op = 3#4 ∨ op = 4#4 ∨ op = 5#4 := by
  revert op; decide

/-- Which words are illegal, by their fields: an `OP` of no row, or a 1 among the fixed zeros of its row's format. -/
theorem decode_illegal_iff_fields (w : U32) : (∃ why, decode w = .illegal why) ↔
    (fieldOp w = 0x0#4 ∨ 6 ≤ (fieldOp w).toNat) ∨
      w.extractLsb' 24 3 ≠ 0#3 ∨
      (fieldOp w = 0x1#4 ∧ (w.getLsbD 27 = true ∨ w.extractLsb' 0 24 ≠ 0#24)) ∨
      (fieldOp w = 0x2#4 ∧ w.extractLsb' 0 24 ≠ 0#24) ∨
      ((fieldOp w = 0x4#4 ∨ fieldOp w = 0x5#4) ∧ w.extractLsb' 16 8 ≠ 0#8) := by
  have hclear : rowClear.selects w = true ↔ _ := (selects_iff _ w).trans (and_maskZ_eq_iff w 1#4)
  have hfill : rowFill.selects w = true ↔ _ := (selects_iff _ w).trans (and_maskV_eq_iff w 2#4)
  have hsetpx : rowSetpx.selects w = true ↔ _ := (selects_iff _ w).trans (and_maskP_eq_iff w 3#4)
  have hflash : rowFlash.selects w = true ↔ _ := (selects_iff _ w).trans (and_maskC_eq_iff w 4#4)
  have hrender : rowRender.selects w = true ↔ _ := (selects_iff _ w).trans (and_maskC_eq_iff w 5#4)
  rw [decode_illegal_iff]
  simp only [opcodeMap, List.forall_mem_cons, hclear, hfill, hsetpx, hflash, hrender]
  rcases opcode_cases (fieldOp w) with ⟨hop, h1, h2, h3, h4, h5⟩ | hop | hop | hop | hop | hop
  · simp [hop, h1, h2, h3, h4, h5]
  · simp [hop, imp_iff_not_or, or_assoc, or_comm, or_left_comm]
  · simp [hop, imp_iff_not_or]
  · simp [hop]
  · simp [hop, imp_iff_not_or]
  · simp [hop, imp_iff_not_or]

end Sys2Proof

namespace Sys2Proof.Machine

/-! ### Acceptance of a word (R53, R59) -/

theorem acceptWord_of_instr {w : U32} {i : Instr} (h : decode w = .instr i) (s : State) :
    acceptWord w s = exec i s := by
  simp only [acceptWord, h]

theorem acceptWord_of_illegal {w : U32} {why : IllegalWord} (h : decode w = .illegal why) (s : State) :
    acceptWord w s = .next (s.raise .illegalCommand w) := by
  simp only [acceptWord, h]

/-- Settles O4: a word's fields decide whether a row selects it; an accepted illegal word is a fault entry. -/
theorem illegalWordsAreExactlyThese : Obligations.IllegalWordsAreExactlyThese := by
  refine ⟨decode_illegal_iff_fields, ⟨.opcode, by decide⟩, ⟨.opcode, by decide⟩, ?_⟩
  rintro s w rest hacc ⟨why, hw⟩
  exact (step_of_accepts hacc).trans (acceptWord_of_illegal hw _)

/-- Settles O7: the step accepts the word, and the accepted word is its command. -/
theorem stepRunsTheDecodedCommand : Obligations.StepRunsTheDecodedCommand := by
  intro s w rest i hacc hw
  exact (step_of_accepts hacc).trans (acceptWord_of_instr hw _)

/-- A step of a block that is not ready takes nothing from the command port, a reset or its release included. -/
theorem step_cmdIn_of_not_ready {s t : State} (hready : s.cmdReady = false) (h : step s = .next t) :
    t.cmdIn = heldCommands s.cmdIn := by
  obtain ⟨-, ⟨img, -, rfl⟩ | ⟨-, -, rfl⟩ | ⟨-, -, -, ⟨w, -, hr, -⟩ | ⟨-, rfl⟩⟩ | ⟨-, -, -, hs⟩⟩ := step_cases h
  · rfl
  · rfl
  · rw [hready] at hr; cases hr
  · rfl
  · obtain ⟨-, -, -, -, -, hcmd, -⟩ := sequencerStep_frame hs
    exact hcmd

/-- Settles O9: what a block that is not ready leaves at the port is a word, which is held. -/
theorem wordIsHeldWhileNotReady : Obligations.WordIsHeldWhileNotReady := by
  intro s t w rest hc hready h
  rw [step_cmdIn_of_not_ready hready h, hc, heldCommands_some]

/-! ### The assembler (R56, R57) -/

/-- A line whose operands fit is its command. -/
theorem assemble_of_wf {d : Nat} {l : AsmLine} (h : (expandPseudo d l).wf = true) :
    assemble d l = coreCommand (expandPseudo d l) := if_pos h

/-- The word of such a line. -/
theorem assemble_word {d : Nat} {l : AsmLine} {i : Instr} (hi : coreCommand (expandPseudo d l) = some i)
    (h : (expandPseudo d l).wf = true) : (assemble d l).map encode = some (encode i) := by
  rw [assemble_of_wf h, hi, Option.map_some]

/-- No pseudo-instruction is left after expansion, so every line has a command. -/
theorem coreCommand_expandPseudo_ne_none (d : Nat) (l : AsmLine) : coreCommand (expandPseudo d l) ≠ none := by
  cases l <;> exact Option.some_ne_none _

theorem assemble_eq_none_iff (d : Nat) (l : AsmLine) : assemble d l = none ↔ (expandPseudo d l).wf = false := by
  cases h : (expandPseudo d l).wf
  · simp [assemble, h]
  · simp [assemble_of_wf h, coreCommand_expandPseudo_ne_none]

/-- A number that fits its field keeps its value in the word. -/
theorem fieldAt_ofNat {k n : Nat} (lo : Nat) (hn : n < 2 ^ k) :
    fieldAt (BitVec.ofNat k n) lo = BitVec.ofNat 32 n <<< lo := by
  have hsame : (BitVec.ofNat k n).setWidth 32 = BitVec.ofNat 32 n := by
    apply BitVec.eq_of_toNat_eq
    simp [Nat.mod_eq_of_lt hn]
  rw [fieldAt, hsame]

/-- The table's word of SETPX. -/
theorem encode_setpx_ofNat (v : Bool) {y x : Nat} (hy : y ≤ 4095) (hx : x ≤ 4095) :
    encode (.setpx v (BitVec.ofNat 12 y) (BitVec.ofNat 12 x)) =
      0x30000000#32 ||| (BitVec.ofBool v).setWidth 32 <<< 27 ||| BitVec.ofNat 32 y <<< 12 ||| BitVec.ofNat 32 x := by
  rw [encode, formatP, fieldAt_ofNat 12 (by omega), fieldAt_ofNat 0 (by omega)]
  simp [fieldAt]

/-- The table's words of FLASH and RENDER. -/
theorem formatC_ofNat (op : BitVec 4) (a : Bool) {n : Nat} (hn : n ≤ 65535) :
    formatC op a (BitVec.ofNat 16 n) =
      formatZ op ||| (BitVec.ofBool a).setWidth 32 <<< 27 ||| BitVec.ofNat 32 n := by
  rw [formatC, fieldAt_ofNat 0 (by omega), BitVec.shiftLeft_zero]
  rfl

/-- Settles O6: each form's word, then the expansions, then the refusals, then the spellings' values. -/
theorem assemblerGivesTheTablesWords : Obligations.AssemblerGivesTheTablesWords := by
  refine ⟨fun d => rfl, fun d v hv => ?_, fun d x y v hx hy hv => ?_, fun d c n hc hn => ?_, fun d n i hn hi => ?_,
    fun d c => rfl, fun d => rfl, fun d n => rfl, fun d => rfl, assemble_eq_none_iff, fun n => ?_, rfl, rfl, rfl, rfl⟩
  · exact assemble_word (l := .fill v) rfl hv
  · have hwf : (expandPseudo d (.setpx x y v)).wf = true := by simp [expandPseudo, AsmLine.wf, hx, hy, hv]
    exact (assemble_word rfl hwf).trans (congrArg some (encode_setpx_ofNat _ hy hx))
  · have hwf : (expandPseudo d (.flash c n)).wf = true := by simp [expandPseudo, AsmLine.wf, hc, hn]
    rw [assemble_word rfl hwf]
    exact congrArg some (formatC_ofNat 4#4 _ hn)
  · have hwf : (expandPseudo d (.render n i)).wf = true := by simp [expandPseudo, AsmLine.wf, hn, hi]
    rw [assemble_word rfl hwf]
    exact congrArg some (formatC_ofNat 5#4 _ hn)
  · exact decide_eq_true_iff

end Sys2Proof.Machine

/-! PROOFS. The pixel buffer (40_pixel_buffer): CLEAR, FILL, SETPX and GETPX, the laws of R66 and the frame of R67. -/

namespace Sys2Proof.Machine

/-! ### What each command answers -/

section Answers

variable {s : State} (hwf : s.cfg.wf = true)

include hwf

/-- On a malformed attachment each of the commands that write `FB` is a fault entry (60_exceptions R104). -/
theorem exec_mismatch (hb : s.cfg.fbAttached = false) {i : Instr} (hi : i.WritesFb) :
    exec i s = .next (s.raise .bufferSizeMismatch (encode i)) := by
  rcases hi with rfl | ⟨v, rfl⟩ | ⟨v, y, x, rfl⟩
  · rw [exec, execClear, admitted_next hwf, needsFb_mismatch hb]
  · rw [exec, execFill, admitted_next hwf, needsFb_mismatch hb]
  · rw [exec, execSetpx, admitted_next hwf, needsFb_mismatch hb]

variable (hb : s.cfg.fbAttached = true)

include hb

theorem exec_clear : exec .clear s = .next (s.fbFill (solidByte false)) := by
  rw [exec, execClear, admitted_next hwf, needsFb_next hb]

theorem exec_fill (v : Bool) : exec (.fill v) s = .next (s.fbFill (solidByte v)) := by
  rw [exec, execFill, admitted_next hwf, needsFb_next hb]

theorem exec_setpx (v : Bool) {y x : BitVec 12} (hx : x.toNat < s.cfg.width) (hy : y.toNat < s.cfg.height) :
    exec (.setpx v y x) s = .next (s.withPixel v y.toNat x.toNat) := by
  rw [exec, execSetpx, admitted_next hwf, needsFb_next hb, if_pos ⟨hx, hy⟩, setPixel_ok hwf v hx hy]

theorem exec_setpx_outOfRange (v : Bool) {y x : BitVec 12} (hoff : s.cfg.width ≤ x.toNat ∨ s.cfg.height ≤ y.toNat) :
    exec (.setpx v y x) s = .next (s.raise .outOfRange (encode (.setpx v y x))) := by
  rw [exec, execSetpx, admitted_next hwf, needsFb_next hb, if_neg (by omega)]

end Answers

/-! ### CLEAR and FILL (R62, R64) -/

/-- What a byte of `FB` reads after every byte was written. -/
theorem read_fbFill {s : State} (hfb : s.fb.wf = true) (b : U8) (a : Nat) :
    (s.fbFill b).fb.read a = if a < s.cfg.fbBytes then b else s.fb.read a :=
  Memory.read_fill b _ hfb a

theorem read_fbFill_beyond {s : State} (hfb : s.fb.wf = true) (b : U8) {a : Nat} (ha : s.cfg.fbBytes ≤ a) :
    (s.fbFill b).fb.read a = s.fb.read a :=
  (read_fbFill hfb b a).trans (if_neg (Nat.not_lt.2 ha))

/-- Settles O14: CLEAR writes the white byte over `FB`, as FILL 0 does. -/
theorem clearMakesEveryByteWhite : Obligations.ClearMakesEveryByteWhite := by
  intro s hwf hfb
  refine ⟨fun hb => ⟨⟨_, exec_clear hwf hb, Memory.wf_fill _ _ hfb, read_fbFill hfb _⟩, ?_⟩,
    fun hb => exec_mismatch hwf hb (.inl rfl)⟩
  rw [exec_clear hwf hb, exec_fill hwf hb]

theorem encode_fill (v : Bool) : encode (.fill v) = if v then 0x28000000#32 else 0x20000000#32 := by
  cases v <;> decide

/-- Settles O15: FILL writes the byte of its colour over `FB`. -/
theorem fillMakesEveryByteUniform : Obligations.FillMakesEveryByteUniform := by
  intro s v hwf hfb
  refine ⟨fun hb => ⟨_, exec_fill hwf hb v, Memory.wf_fill _ _ hfb, read_fbFill hfb _⟩, fun hb => ?_⟩
  rw [exec_mismatch hwf hb (.inr (.inl ⟨v, rfl⟩)), encode_fill]

theorem solidByte_getLsbD (v : Bool) {k : Nat} (hk : k < 8) : (solidByte v).getLsbD k = v := by
  cases v
  · exact BitVec.getLsbD_zero
  · exact (BitVec.getLsbD_allOnes (v := 8)).trans (decide_eq_true hk)

/-- After a fill every pixel on the panel has its colour. -/
theorem getpx_fbFill {s : State} (hwf : s.cfg.wf = true) (hfb : s.fb.wf = true) (v : Bool) {x y : Nat}
    (hx : x < s.cfg.width) (hy : y < s.cfg.height) : getpx (s.fbFill (solidByte v)) x y = v := by
  have ha : pixelByte s.cfg y x < s.cfg.fbBytes := pixelByte_lt hwf hx hy
  rw [getpx, read_fbFill hfb, State.fbFill_cfg, if_pos ha]
  exact solidByte_getLsbD v (pixelBit_lt s.cfg y x)

/-- Settles O17: each of the commands is a fill, the last one on the state the first one leaves. -/
theorem clearAndFillLeaveEveryPixelWhite : Obligations.ClearAndFillLeaveEveryPixelWhite := by
  intro s hwf hfb hb
  have hfb' : (s.fbFill (solidByte true)).fb.wf = true := Memory.wf_fill _ _ hfb
  have hwhite := exec_fill (s := s.fbFill (solidByte true)) hwf hb false
  refine ⟨⟨_, exec_clear hwf hb, fun x y hx hy => ?_⟩,
    ⟨_, _, exec_fill hwf hb true, hwhite, fun x y hx hy => ?_, fun x y hx hy => ?_⟩⟩
  · exact getpx_fbFill hwf hfb false hx hy
  · exact getpx_fbFill hwf hfb true hx hy
  · exact getpx_fbFill (s := s.fbFill (solidByte true)) hwf hfb' false hx hy

/-! ### `FB` bit by bit

Canonical memories are equal when every bit of every byte is, so what SETPX does to one bit is all there is to say. -/

theorem Memory.ext_getLsbD {m m' : Memory} (h : m.wf = true) (h' : m'.wf = true)
    (hbit : ∀ a k, k < 8 → (m.read a).getLsbD k = (m'.read a).getLsbD k) : m = m' :=
  Memory.ext_read h h' fun a => BitVec.eq_of_getLsbD_eq fun k hk => hbit a k hk

theorem wf_withPixel {s : State} (hfb : s.fb.wf = true) (v : Bool) (y x : Nat) : (s.withPixel v y x).fb.wf = true :=
  Memory.wf_write _ _ hfb

/-- SETPX writes one bit of one byte (R63). -/
theorem withPixel_getLsbD {s : State} (hfb : s.fb.wf = true) (v : Bool) (y x a : Nat) {k : Nat} (hk : k < 8) :
    ((s.withPixel v y x).fb.read a).getLsbD k =
      if a = pixelByte s.cfg y x ∧ k = pixelBit s.cfg y x then v else (s.fb.read a).getLsbD k := by
  rw [State.withPixel_fb, Memory.read_write hfb]
  by_cases ha : pixelByte s.cfg y x = a
  · subst ha
    simp [withBit_getLsbD _ _ v (pixelBit_lt s.cfg y x) k hk]
  · simp [ha, Ne.symm ha]

theorem read_withPixel_other {s : State} (hfb : s.fb.wf = true) (v : Bool) {y x a : Nat}
    (ha : a ≠ pixelByte s.cfg y x) : (s.withPixel v y x).fb.read a = s.fb.read a :=
  Memory.read_write_other hfb _ (Ne.symm ha)

/-- Settles O16: the range check decides between OutOfRange and the write of one bit. -/
theorem setpxChangesOneBit : Obligations.SetpxChangesOneBit := by
  intro s v y x hwf hfb
  refine ⟨fun hb => exec_mismatch hwf hb (.inr (.inr ⟨v, y, x, rfl⟩)),
    fun hb hoff => exec_setpx_outOfRange hwf hb v hoff,
    fun hb hx hy => ⟨_, exec_setpx hwf hb v hx hy, wf_withPixel hfb v _ _, fun b hne => ?_, fun j hj => ?_⟩⟩
  · exact read_withPixel_other hfb v hne
  · have hbit := withPixel_getLsbD hfb v y.toNat x.toNat (pixelByte s.cfg y.toNat x.toNat) hj
    exact hbit.trans (if_congr (and_iff_right rfl) rfl rfl)

/-! ### GETPX after SETPX (R66 c, d) -/

theorem getpx_withPixel {s : State} (hfb : s.fb.wf = true) (v : Bool) (y x y' x' : Nat) :
    getpx (s.withPixel v y x) x' y' =
      if pixelByte s.cfg y' x' = pixelByte s.cfg y x ∧ pixelBit s.cfg y' x' = pixelBit s.cfg y x then v
      else getpx s x' y' :=
  withPixel_getLsbD hfb v y x _ (pixelBit_lt s.cfg y' x')

theorem getpx_withPixel_same {s : State} (hfb : s.fb.wf = true) (v : Bool) (y x : Nat) :
    getpx (s.withPixel v y x) x y = v :=
  (getpx_withPixel hfb v y x y x).trans (if_pos ⟨rfl, rfl⟩)

theorem getpx_withPixel_other {s : State} (hwf : s.cfg.wf = true) (hfb : s.fb.wf = true) (v : Bool) {y x y' x' : Nat}
    (hx : x < s.cfg.width) (hx' : x' < s.cfg.width) (hne : (x', y') ≠ (x, y)) :
    getpx (s.withPixel v y x) x' y' = getpx s x' y' := by
  refine (getpx_withPixel hfb v y x y' x').trans (if_neg fun ⟨ha, hk⟩ => hne ?_)
  obtain ⟨ex, ey⟩ := pixel_address_injective hwf hx' hx ha hk
  exact Prod.ext ex ey

/-- Settles O18: another pixel is another bit. -/
theorem setpxReadsBackAndLeavesOthers : Obligations.SetpxReadsBackAndLeavesOthers := by
  intro s v y x hwf hfb hb hx hy
  exact ⟨_, exec_setpx hwf hb v hx hy, getpx_withPixel_same hfb v _ _,
    fun x' y' hx' _ hne => getpx_withPixel_other hwf hfb v hx hx' hne⟩

/-! ### SETPX after SETPX (R66 e to g) -/

/-- Two writes of one pixel are the last one. -/
theorem withPixel_withPixel_same {s : State} (hfb : s.fb.wf = true) (v v' : Bool) (y x : Nat) :
    (s.withPixel v y x).withPixel v' y x = s.withPixel v' y x := by
  have hfb1 := wf_withPixel hfb v y x
  have heq : ((s.withPixel v y x).withPixel v' y x).fb = (s.withPixel v' y x).fb := by
    refine Memory.ext_getLsbD (wf_withPixel hfb1 v' y x) (wf_withPixel hfb v' y x) fun a k hk => ?_
    rw [withPixel_getLsbD hfb1 v' y x a hk, withPixel_getLsbD hfb v y x a hk, withPixel_getLsbD hfb v' y x a hk,
      State.withPixel_cfg]
    split <;> rfl
  exact congrArg (fun m : Memory => { s with fb := m }) heq

/-- Writes of two bits commute. -/
theorem withPixel_comm {s : State} (hfb : s.fb.wf = true) (v v' : Bool) {y x y' x' : Nat}
    (hne : ¬(pixelByte s.cfg y x = pixelByte s.cfg y' x' ∧ pixelBit s.cfg y x = pixelBit s.cfg y' x')) :
    (s.withPixel v y x).withPixel v' y' x' = (s.withPixel v' y' x').withPixel v y x := by
  have hfb1 := wf_withPixel hfb v y x
  have hfb2 := wf_withPixel hfb v' y' x'
  have heq : ((s.withPixel v y x).withPixel v' y' x').fb = ((s.withPixel v' y' x').withPixel v y x).fb := by
    refine Memory.ext_getLsbD (wf_withPixel hfb1 v' y' x') (wf_withPixel hfb2 v y x) fun a k hk => ?_
    rw [withPixel_getLsbD hfb1 v' y' x' a hk, withPixel_getLsbD hfb v y x a hk, withPixel_getLsbD hfb2 v y x a hk,
      withPixel_getLsbD hfb v' y' x' a hk, State.withPixel_cfg, State.withPixel_cfg]
    split_ifs with h' h
    · exact absurd ⟨h.1.symm.trans h'.1, h.2.symm.trans h'.2⟩ hne
    · rfl
    · rfl
    · rfl
  exact congrArg (fun m : Memory => { s with fb := m }) heq

/-- Writing a pixel leaves `FB` as it was exactly when the pixel had that value. -/
theorem withPixel_fb_eq_iff {s : State} (hfb : s.fb.wf = true) (v : Bool) (y x : Nat) :
    (s.withPixel v y x).fb = s.fb ↔ getpx s x y = v := by
  constructor
  · intro h
    calc getpx s x y
      _ = getpx (s.withPixel v y x) x y := by rw [getpx, getpx, h, State.withPixel_cfg]
      _ = v := getpx_withPixel_same hfb v y x
  · rintro rfl
    refine Memory.ext_getLsbD (wf_withPixel hfb _ y x) hfb fun a k hk => ?_
    rw [withPixel_getLsbD hfb _ y x a hk]
    split
    next h => rw [h.1, h.2]; rfl
    next => rfl

/-- Settles O19: black then white is white alone, which changes `FB` only if the pixel was black (C5). -/
theorem setpxLastWriteWins : Obligations.SetpxLastWriteWins := by
  intro s v v' y x hwf hfb hb hx hy
  have hset (w : Bool) : exec (.setpx w y x) s = .next (s.withPixel w y.toNat x.toNat) := exec_setpx hwf hb w hx hy
  have hlast (w w' : Bool) : exec (.setpx w' y x) (s.withPixel w y.toNat x.toNat) =
      .next (s.withPixel w' y.toNat x.toNat) := by
    rw [exec_setpx (s := s.withPixel w y.toNat x.toNat) hwf hb w' hx hy, withPixel_withPixel_same hfb]
  exact ⟨⟨_, _, hset v, hlast v v', hset v'⟩, ⟨_, _, hset true, hlast true false, withPixel_fb_eq_iff hfb false _ _⟩⟩

/-- Settles O20: different coordinates on the panel are different bits. -/
theorem setpxOnDifferentPixelsCommute : Obligations.SetpxOnDifferentPixelsCommute := by
  intro s v v' y x y' x' hwf hfb hb hx hy hx' hy' hne
  have haddr : ¬(pixelByte s.cfg y.toNat x.toNat = pixelByte s.cfg y'.toNat x'.toNat ∧
      pixelBit s.cfg y.toNat x.toNat = pixelBit s.cfg y'.toNat x'.toNat) := fun ⟨ha, hk⟩ => by
    obtain ⟨ex, ey⟩ := pixel_address_injective hwf hx hx' ha hk
    exact hne (Prod.ext (BitVec.eq_of_toNat_eq ex) (BitVec.eq_of_toNat_eq ey))
  refine ⟨_, _, _, exec_setpx hwf hb v hx hy,
    exec_setpx (s := s.withPixel v y.toNat x.toNat) hwf hb v' hx' hy', exec_setpx hwf hb v' hx' hy', ?_⟩
  rw [exec_setpx (s := s.withPixel v' y'.toNat x'.toNat) hwf hb v hx hy, withPixel_comm hfb v v' haddr]

/-! ### Every bit is a pixel (R66 h) -/

/-- Every pixel index below `8 * FB_BYTES` is on the panel (00_scope R6, R7). -/
theorem pixelIndex_surjective {c : Config} (h : c.wf = true) {i : Nat} (hi : i < 8 * c.fbBytes) :
    ∃ x y, x < c.width ∧ y < c.height ∧ pixelIndex c y x = i := by
  have hbits : 8 * c.fbBytes = c.width * c.height := by
    rw [Config.fbBytes_eq h, Config.width_eq h, Nat.mul_comm c.height, Nat.mul_assoc]
  have hpos : 0 < c.width := by
    have := Config.width_eq h
    have := Config.fbRowBytes_pos h
    omega
  exact ⟨i % c.width, i / c.width, Nat.mod_lt i hpos, Nat.div_lt_of_lt_mul (hbits ▸ hi), Nat.div_add_mod' i c.width⟩

/-- Under either bit order a bit of a byte stands for one place in a group of eight pixels (20_memory R34). -/
theorem exists_place_of_bit (c : Config) {k : Nat} (hk : k < 8) :
    ∃ r, r < 8 ∧ ∀ y x, pixelIndex c y x % 8 = r → pixelBit c y x = k := by
  cases ho : c.fbBitOrder with
  | lsb0 => exact ⟨k, hk, fun y x h => by simp only [pixelBit, ho, h]⟩
  | msb0 => exact ⟨7 - k, by omega, fun y x h => by simp only [pixelBit, ho, h]; omega⟩

theorem exists_pixel_at {c : Config} (h : c.wf = true) {a k : Nat} (ha : a < c.fbBytes) (hk : k < 8) :
    ∃ x y, x < c.width ∧ y < c.height ∧ pixelByte c y x = a ∧ pixelBit c y x = k := by
  obtain ⟨r, hr, hbit⟩ := exists_place_of_bit c hk
  obtain ⟨x, y, hx, hy, hi⟩ := pixelIndex_surjective h (i := 8 * a + r) (by omega)
  exact ⟨x, y, hx, hy, by rw [pixelByte, hi]; omega, hbit y x (by omega)⟩

/-- Settles O21: the pixel of index `8a + r` is at byte `a`, and no other pixel on the panel is at its bit. -/
theorem pixelAddressesAreABijection : Obligations.PixelAddressesAreABijection := by
  intro c h
  refine ⟨fun x y hx hy => ⟨pixelByte_lt h hx hy, pixelBit_lt c y x⟩, fun a k ha hk => ?_⟩
  obtain ⟨x, y, hx, hy, hbyte, hbit⟩ := exists_pixel_at h ha hk
  refine ⟨x, y, hx, hy, hbyte, hbit, fun x' y' hx' _ hbyte' hbit' => ?_⟩
  exact pixel_address_injective h hx' hx (hbyte'.trans hbyte.symm) (hbit'.trans hbit.symm)

/-! ### The frame (R67) -/

/-- Settles O22, by what a command can do. -/
theorem pixelCommandsTouchOnlyFbOrTheLatch : Obligations.PixelCommandsTouchOnlyFbOrTheLatch := by
  intro s t i hi he
  obtain ⟨hwf, ⟨-, rfl⟩ | ⟨-, _, _, _, -, -, rfl⟩ | ⟨-, -, rfl⟩ | ⟨-, v, -, rfl⟩ | ⟨-, v, y, x, -, hx, hy, rfl⟩ |
    ⟨a, n, rfl, -⟩ | ⟨-, a, n, rfl, -⟩⟩ := exec_cases he
  · exact .inr rfl
  · exact .inr rfl
  · exact .inl ⟨rfl, fun a ha hfb => read_fbFill_beyond hfb _ ha⟩
  · exact .inl ⟨rfl, fun a ha hfb => read_fbFill_beyond hfb _ ha⟩
  · have hlt : pixelByte s.cfg y.toNat x.toNat < s.cfg.fbBytes := pixelByte_lt hwf hx hy
    exact .inl ⟨rfl, fun a ha hfb => read_withPixel_other hfb v (Nat.ne_of_gt (hlt.trans_le ha))⟩
  · simp at hi
  · simp at hi

end Sys2Proof.Machine

/-! PROOFS. The expand table (41_expand_table): the substitution, the laws of R72, and the printed table of R73. -/

namespace Sys2Proof.Machine

/-! ### Words of eight pairs

A pattern is eight pairs of bits, so the laws of R72 are read off pair by pair: `expand_bits` gives the pairs of a
pattern, and the lemmas of this section those of the words the laws compare it with. -/

/-- Words are equal when both bits of every pair are. -/
theorem eq_of_pairs {u w : U16} (heven : ∀ i : Fin 8, u.getLsbD (2 * i.val) = w.getLsbD (2 * i.val))
    (hodd : ∀ i : Fin 8, u.getLsbD (2 * i.val + 1) = w.getLsbD (2 * i.val + 1)) : u = w := by
  apply BitVec.eq_of_getLsbD_eq
  intro k hk
  obtain hpar | hpar := Nat.mod_two_eq_zero_or_one k
  · simpa only [show 2 * (k / 2) = k by omega] using heven ⟨k / 2, by omega⟩
  · simpa only [show 2 * (k / 2) + 1 = k by omega] using hodd ⟨k / 2, by omega⟩

@[simp] theorem expand_even (b : U8) (i : Fin 8) : (expand b).getLsbD (2 * i.val) = b.getLsbD i.val :=
  (expand_bits b i).1

@[simp] theorem expand_odd (b : U8) (i : Fin 8) : (expand b).getLsbD (2 * i.val + 1) = !b.getLsbD i.val :=
  (expand_bits b i).2

@[simp] theorem spread_even : ∀ (b : U8) (i : Fin 8), (spread b).getLsbD (2 * i.val) = b.getLsbD i.val := by decide

@[simp] theorem spread_odd : ∀ (b : U8) (i : Fin 8), (spread b).getLsbD (2 * i.val + 1) = false := by decide

@[simp] theorem spread_add_spread_even :
    ∀ (b : U8) (i : Fin 8), (spread b + spread b).getLsbD (2 * i.val) = false := by decide

@[simp] theorem spread_add_spread_odd :
    ∀ (b : U8) (i : Fin 8), (spread b + spread b).getLsbD (2 * i.val + 1) = b.getLsbD i.val := by decide

/-- `0xAAAA`, the pattern of eight white pixels, is `10` in every pair. -/
@[simp] theorem expand_white_even : ∀ i : Fin 8, (0xAAAA#16).getLsbD (2 * i.val) = false := by decide

@[simp] theorem expand_white_odd : ∀ i : Fin 8, (0xAAAA#16).getLsbD (2 * i.val + 1) = true := by decide

/-! ### The arithmetic laws (R72 a, b)

Words that share no bit add without a carry, and `SPREAD` and its double share none. -/

theorem three_mul_spread (b : U8) : 3#16 * spread b = spread b ||| (spread b + spread b) := by
  have hdisjoint : spread b &&& (spread b + spread b) = 0#16 := eq_of_pairs (by simp) (by simp)
  rw [← BitVec.add_eq_or_of_and_eq_zero _ _ hdisjoint, ← BitVec.two_mul]
  change (1#16 + 2#16) * spread b = _
  rw [BitVec.add_mul, BitVec.one_mul]

theorem expand_eq_xor_spread (b : U8) : expand b = 0xAAAA#16 ^^^ (3#16 * spread b) := by
  rw [three_mul_spread]
  exact eq_of_pairs (by simp) (by simp)

/-- The pattern's odd bits are those of `0xAAAA` that the double of `SPREAD` leaves. -/
theorem expand_eq_add_spread (b : U8) : expand b = (0xAAAA#16 ^^^ (spread b + spread b)) + spread b := by
  have hdisjoint : (0xAAAA#16 ^^^ (spread b + spread b)) &&& spread b = 0#16 := eq_of_pairs (by simp) (by simp)
  rw [BitVec.add_eq_or_of_and_eq_zero _ _ hdisjoint]
  exact eq_of_pairs (by simp) (by simp)

theorem expand_eq_sub_spread (b : U8) : expand b = 0xAAAA#16 - spread b := by
  have hdisjoint : (0xAAAA#16 ^^^ (spread b + spread b)) &&& (spread b + spread b) = 0#16 :=
    eq_of_pairs (by simp) (by simp)
  rw [BitVec.eq_sub_iff_add_eq]
  calc expand b + spread b
    _ = (0xAAAA#16 ^^^ (spread b + spread b)) + (spread b + spread b) := by rw [expand_eq_add_spread, add_assoc]
    _ = (0xAAAA#16 ^^^ (spread b + spread b)) ||| (spread b + spread b) :=
      BitVec.add_eq_or_of_and_eq_zero _ _ hdisjoint
    _ = 0xAAAA#16 := eq_of_pairs (by simp) (by simp)

/-! ### The inverse view, and what a pattern determines (R72 c, e, f) -/

theorem expand_complement (b : U8) : expand (255#8 - b) = ~~~expand b := by
  rw [complement_eq]
  refine eq_of_pairs (fun i => ?_) (fun i => ?_)
  · have hi : 2 * i.val < 16 := by omega
    simp only [expand_even, BitVec.getLsbD_not, i.isLt, hi, decide_true, Bool.true_and]
  · have hi : 2 * i.val + 1 < 16 := by omega
    simp only [expand_odd, BitVec.getLsbD_not, i.isLt, hi, decide_true, Bool.true_and]

theorem expand_injective {b b' : U8} (h : expand b = expand b') : b = b' := by
  apply BitVec.eq_of_getLsbD_eq
  intro k hk
  rw [← expand_even b ⟨k, hk⟩, h, expand_even]

/-- `E4`, the substitution on four bits (R72 f). -/
def expandNibble (n : BitVec 4) : U8 :=
  symbol (n.getLsbD 3) ++ symbol (n.getLsbD 2) ++ symbol (n.getLsbD 1) ++ symbol (n.getLsbD 0)

theorem expandNibble_pair : ∀ (n : BitVec 4) (i : Fin 4),
    (expandNibble n).extractLsb' (2 * i.val) 2 = symbol (n.getLsbD i.val) := by decide

/-- Appending four pairs one by one appends the byte that they make. -/
theorem append_four (x : U8) (p q r t : BitVec 2) : x ++ p ++ q ++ r ++ t = x ++ (p ++ q ++ r ++ t) := by
  rw [BitVec.append_assoc, BitVec.append_assoc, BitVec.append_assoc, BitVec.append_assoc, BitVec.append_assoc]
  rfl

/-- The high byte holds the upper four pairs, the low byte the lower four. -/
theorem expand_eq_nibbles (b : U8) :
    expand b = expandNibble (b.extractLsb' 4 4) ++ expandNibble (b.extractLsb' 0 4) := by
  rw [expand, append_four]
  simp [expandNibble]

/-- Settles O31: law by law; (g) is (c), and (d) is `expand_bits`. -/
theorem expandLaws : Obligations.ExpandLaws := by
  refine ⟨expand_eq_sub_spread, expand_eq_xor_spread, fun b => ⟨expand_complement b, rfl⟩,
    fun b i => ⟨expand_odd b i, expand_even b i⟩, fun _ _ => expand_injective,
    ⟨expandNibble, expandNibble_pair, expand_eq_nibbles⟩, fun b => ?_⟩
  rw [expand_complement]
  exact ⟨BitVec.and_not_self _, BitVec.or_not_self _⟩

/-- Settles O29: the pairs by `expand_pair`, the corner values by evaluation. -/
theorem expandSubstitutesPairs : Obligations.ExpandSubstitutesPairs :=
  ⟨fun b i => expand_pair b i.isLt, rfl, rfl, rfl⟩

/-! ### The printed table (R73) -/

/-- The quarter of the table that begins at index `start`. -/
def lutQuarter (start : Nat) : List U16 := (List.range' start 64).map fun i => lut (BitVec.ofNat 8 i)

theorem tableR73Part0_eq : tableR73Part0 = lutQuarter 0 := by rfl
theorem tableR73Part1_eq : tableR73Part1 = lutQuarter 64 := by rfl
theorem tableR73Part2_eq : tableR73Part2 = lutQuarter 128 := by rfl
theorem tableR73Part3_eq : tableR73Part3 = lutQuarter 192 := by rfl

theorem tableR73_eq : tableR73 = (List.range 256).map fun i => lut (BitVec.ofNat 8 i) := by
  rw [List.range_eq_range', ← List.range'_append_1 (m := 192) (n := 64),
    ← List.range'_append_1 (m := 128) (n := 64), ← List.range'_append_1 (m := 64) (n := 64), List.map_append,
    List.map_append, List.map_append, tableR73, tableR73Part0_eq, tableR73Part1_eq, tableR73Part2_eq,
    tableR73Part3_eq]
  rfl

theorem tableR73_getElem? (b : U8) : tableR73[b.toNat]? = some (lut b) := by
  simp [tableR73_eq, List.getElem?_range b.isLt]

/-- An entry and the entry of the complemented index add up to sixteen ones (R72 c). -/
theorem lut_add_lut_complement (b : U8) : (lut b).toNat + (lut (255#8 - b)).toNat = 0xFFFF := by
  rw [lut, lut, expand_complement, BitVec.toNat_not]
  omega

theorem ofNat_complement {i : Nat} (h : i ≤ 255) : BitVec.ofNat 8 (255 - i) = 255#8 - BitVec.ofNat 8 i := by
  bv_omega

/-- The table read backwards complements the index, so twice the sum is 256 times `0xFFFF`. -/
theorem tableR73_sum : (tableR73.map BitVec.toNat).foldl (· + ·) 0 = 0x7FFF80 := by
  have hsum : (tableR73.map BitVec.toNat).foldl (· + ·) 0 =
      ∑ i ∈ Finset.range 256, (lut (BitVec.ofNat 8 i)).toNat := by
    rw [← List.sum_eq_foldl, tableR73_eq, List.map_map]
    rfl
  have hreflect := Finset.sum_range_reflect (fun i => (lut (BitVec.ofNat 8 i)).toNat) 256
  have hpairs : ∑ i ∈ Finset.range 256,
      ((lut (BitVec.ofNat 8 i)).toNat + (lut (BitVec.ofNat 8 (256 - 1 - i))).toNat) = 256 * 0xFFFF := by
    rw [Finset.sum_congr rfl fun i hi => ?_, Finset.sum_const, Finset.card_range, smul_eq_mul]
    rw [ofNat_complement (by have := Finset.mem_range.1 hi; omega)]
    exact lut_add_lut_complement _
  rw [Finset.sum_add_distrib, hreflect] at hpairs
  omega

theorem tableR73Part0_xor : tableR73Part0.foldl (· ^^^ ·) 0#16 = 0#16 := by rfl
theorem tableR73Part1_xor : tableR73Part1.foldl (· ^^^ ·) 0#16 = 0#16 := by rfl
theorem tableR73Part2_xor : tableR73Part2.foldl (· ^^^ ·) 0#16 = 0#16 := by rfl
theorem tableR73Part3_xor : tableR73Part3.foldl (· ^^^ ·) 0#16 = 0#16 := by rfl

/-- Each quarter alone has the exclusive-or zero. -/
theorem tableR73_xor : tableR73.foldl (· ^^^ ·) 0#16 = 0#16 := by
  rw [tableR73, List.foldl_append, List.foldl_append, List.foldl_append, tableR73Part0_xor, tableR73Part1_xor,
    tableR73Part2_xor, tableR73Part3_xor]

/-- Settles O30: the entries quarter by quarter, the sum by pairing an entry with its complement's. -/
theorem tableIsTheSpecs : Obligations.TableIsTheSpecs :=
  ⟨tableR73_getElem?, by simp [tableR73_eq], tableR73_sum, tableR73_xor⟩

end Sys2Proof.Machine

/-! PROOFS. The row compositor (42_row_compositor): the words of a pixel row and of a fill row, that a step under the
invariant composes a row that exists, and that a fill frame composes its rows without `FB`. -/

namespace Sys2Proof.Machine

/-! ### The rows (R75, R76) -/

/-- Settles O32: the composed row is the closed form of R89, which `pixRow_getElem?` reads word by word. -/
theorem pixelRowWords : Obligations.PixelRowWords := by
  intro s y inv hwf hy
  have hwords : s.cfg.rowWords = s.cfg.width / 8 := Config.rowWords_eq hwf
  refine ⟨_, composePixelRow_ok hwf hy inv, (pixRow_length _ _ _ _).trans hwords, fun j hj => ?_⟩
  exact pixRow_getElem? s.cfg s.fb y inv (hj.trans_eq hwords.symm)

/-- A row that repeats a word of two equal bytes repeats that byte (20_memory R36). -/
theorem rowToBytes_replicate (o : ByteOrder) (n : Nat) (b : U8) :
    rowToBytes o (List.replicate n (bytesWord o b b)) = List.replicate (n * 2) b := by
  have hpair : wordBytes o (bytesWord o b b) = List.replicate 2 b := wordBytes_bytesWord o b b
  rw [rowToBytes, List.flatMap_replicate, hpair, List.flatten_replicate_replicate]

/-- Settles O34: both bytes of every word are the colour's, so the byte order does not show. -/
theorem fillRowBytes : Obligations.FillRowBytes := by
  intro c black hwf
  refine ⟨?_, composeFillRow_eq c black⟩
  rw [composeFillRow, rowToBytes_replicate, Config.rowBytes_eq hwf, Nat.mul_comm]
  rfl

/-- The inverse row looks the table up at complemented indices, where the entries are complemented (41_expand_table
R72 c). -/
theorem pixRow_inverse (c : Config) (fb : Memory) (y : Nat) :
    pixRow c fb y true = (pixRow c fb y false).map fun w => ~~~w := by
  rw [pixRow, pixRow, List.map_map]
  exact List.map_congr_left fun j _ => expand_complement _

/-- Settles O36, by the closed form of both rows. -/
theorem inverseRowIsTheComplement : Obligations.InverseRowIsTheComplement := by
  intro s y hwf hy
  refine ⟨_, composePixelRow_ok hwf hy false, ?_⟩
  rw [composePixelRow_ok hwf hy true, pixRow_inverse]

/-! ### Under the invariant a step answers a next state

On an admitted configuration only an access beyond `FB` stops the block. SETPX makes none, and the compositor none for
a row on the panel (40_pixel_buffer R63, 42_row_compositor R75). -/

theorem exists_next_ite {c : Prop} [Decidable c] {x y : Out} (hx : ∃ t, x = .next t) (hy : ∃ t, y = .next t) :
    ∃ t, (if c then x else y) = .next t := by
  split
  · exact hx
  · exact hy

/-- A call completes or waits. -/
theorem exists_next_call (s : State) (e : Event) (f : State → State) : ∃ t, s.call e f = .next t :=
  exists_next_ite ⟨_, rfl⟩ ⟨_, rfl⟩

theorem exists_next_needsFb {s : State} (w : U32) {k : State → Out} (hk : ∃ t, k s = .next t) :
    ∃ t, s.needsFb w k = .next t :=
  exists_next_ite hk ⟨_, rfl⟩

/-- Every command has its effect or its fault entry (60_exceptions R106). -/
theorem exists_next_exec (i : Instr) {s : State} (hwf : s.cfg.wf = true) : ∃ t, exec i s = .next t := by
  cases i with
  | clear =>
    rw [exec, execClear, admitted_next hwf]
    exact exists_next_needsFb _ ⟨_, rfl⟩
  | fill v =>
    rw [exec, execFill, admitted_next hwf]
    exact exists_next_needsFb _ ⟨_, rfl⟩
  | setpx v y x =>
    rw [exec, execSetpx, admitted_next hwf]
    refine exists_next_needsFb _ ?_
    split
    · rename_i hon
      exact ⟨_, setPixel_ok hwf v hon.1 hon.2⟩
    · exact ⟨_, rfl⟩
  | flash a n =>
    rw [exec, execFlash, admitted_next hwf]
    exact ⟨_, rfl⟩
  | render a n =>
    rw [exec, execRender, admitted_next hwf]
    exact exists_next_needsFb _ ⟨_, rfl⟩

theorem exists_next_acceptWord (w : U32) {s : State} (hwf : s.cfg.wf = true) : ∃ t, acceptWord w s = .next t := by
  cases hd : decode w with
  | instr i => rw [acceptWord_of_instr hd]; exact exists_next_exec i hwf
  | illegal why => exact ⟨_, acceptWord_of_illegal hd s⟩

theorem exists_next_idleStep {s : State} (hwf : s.cfg.wf = true) : ∃ t, idleStep s = .next t := by
  cases hw : s.cmdNow with
  | none => rw [idleStep, hw]; exact ⟨_, rfl⟩
  | some w => rw [idleStep, hw]; exact exists_next_ite (exists_next_acceptWord w hwf) ⟨_, rfl⟩

/-- Composing a row on the panel answers a row, in either mode (R75, R76). -/
theorem composedRow_ok {s : State} (hwf : s.cfg.wf = true) (hr : s.row.toNat < s.cfg.height) :
    ∃ r, s.composedRow = .ok r := by
  cases hm : s.mode with
  | fill => exact ⟨_, composedRow_fill hm⟩
  | pixel => exact ⟨_, composedRow_pixel hwf hm hr⟩

/-- A micro-step answers a next state if `S_COMPOSE` finds its row (43_frame_driver R88). -/
theorem exists_next_sequencerStep {s : State} (hc : s.seq = .compose → ∃ r, s.composedRow = .ok r) :
    ∃ t, sequencerStep s = .next t := by
  unfold sequencerStep
  cases hq : s.seq with
  | idle => exact ⟨_, rfl⟩
  | cycleCheck => exact exists_next_ite ⟨_, rfl⟩ ⟨_, rfl⟩
  | start => exact exists_next_ite (exists_next_call s _ _) ⟨_, rfl⟩
  | rowCheck => exact exists_next_ite ⟨_, rfl⟩ ⟨_, rfl⟩
  | compose =>
    obtain ⟨r, hr⟩ := hc hq
    simp only [seqCompose, hr]
    exact ⟨_, rfl⟩
  | reorder => exact exists_next_call s _ _
  | stage1 => exact exists_next_ite (exists_next_call s _ _) ⟨_, rfl⟩
  | switch => exact exists_next_call s _ _
  | stage2 => exact exists_next_call s _ _
  | clock => exact exists_next_call s _ _
  | trail => exact exists_next_call s _ _
  | endFrame => exact exists_next_ite (exists_next_call s _ _) ⟨_, rfl⟩
  | next => exact ⟨_, rfl⟩

/-- A step in which `rst` is asserted (70_reset R124). -/
theorem step_of_reset {s : State} {img : ResetImage} (hwf : s.cfg.wf = true) (hr : s.rstNow = some img) :
    step s = .next (s.tick.resetBy img) := by
  unfold step blockStep
  rw [admitted_next hwf]
  simp only [hr]

/-- Settles O43: the invariant has `ROW` on the panel where a row is composed. -/
theorem stepNeverStopsUnderTheInvariant : Obligations.StepNeverStopsUnderTheInvariant := by
  intro s h
  have hwf := h.admitted
  cases hr : s.rstNow with
  | some img => exact ⟨_, step_of_reset hwf hr⟩
  | none =>
    cases hi : s.inReset with
    | true => exact ⟨_, step_of_inReset hwf hr hi⟩
    | false =>
      by_cases hq : s.seq = .idle
      · rw [step_of_idle hwf hr hi hq]
        exact exists_next_idleStep hwf
      · rw [step_of_running hwf hr hi hq]
        refine exists_next_sequencerStep fun hcompose => ?_
        obtain ⟨-, hrow⟩ := controlOk_at h.tick.control hcompose
        exact composedRow_ok hwf hrow

/-! ### `FB` reaches a micro-step through the composed row alone -/

/-- The block with other contents of `FB`. -/
def State.withFb (m : Memory) (s : State) : State := { s with fb := m }

@[simp] theorem State.withFb_seq (m : Memory) (s : State) : (s.withFb m).seq = s.seq := rfl

/-- The same of what a micro-step answers. -/
def Out.withFb (m : Memory) : Out → Out
  | .next s => .next (s.withFb m)
  | .fault f => .fault f
  | .refused r => .refused r

/-- A choice that does not read `FB`, between answers that do not. -/
theorem ite_withFb (m : Memory) (c : Prop) [Decidable c] {x y x' y' : Out} (hx : x' = Out.withFb m x)
    (hy : y' = Out.withFb m y) : (if c then x' else y') = Out.withFb m (if c then x else y) := by
  rw [hx, hy, ← apply_ite]

/-- A call whose writes do not read `FB` answers the same over another. -/
theorem call_withFb (m : Memory) (s : State) (e : Event) {f : State → State}
    (hf : ∀ u : State, f (u.withFb m) = (f u).withFb m) :
    (s.withFb m).call e f = Out.withFb m (s.call e f) :=
  ite_withFb m _ (congrArg _ (hf (s.ackTaken.emit e))) rfl

/-- Every row of the table of 43_frame_driver R88 is the same over another `FB` that composes the same row. -/
theorem sequencerStep_withFb (m : Memory) {s : State} (hc : (s.withFb m).composedRow = s.composedRow) :
    sequencerStep (s.withFb m) = Out.withFb m (sequencerStep s) := by
  unfold sequencerStep
  rw [State.withFb_seq]
  cases s.seq
  case idle => rfl
  case cycleCheck => exact ite_withFb m _ rfl rfl
  case start => exact ite_withFb m _ (call_withFb m s _ fun _ => rfl) rfl
  case rowCheck => exact ite_withFb m _ rfl rfl
  case compose =>
    unfold seqCompose
    rw [hc]
    cases s.composedRow <;> rfl
  case reorder => exact call_withFb m s _ fun _ => rfl
  case stage1 => exact ite_withFb m _ (call_withFb m s _ fun _ => rfl) rfl
  case switch => exact call_withFb m s _ fun _ => rfl
  case stage2 => exact call_withFb m s _ fun _ => rfl
  case clock => exact call_withFb m s _ fun _ => rfl
  case trail => exact call_withFb m s _ fun _ => rfl
  case endFrame => exact ite_withFb m _ (call_withFb m s _ fun _ => rfl) rfl
  case next => rfl

/-- COMPOSE_FILL_ROW does not read `FB` (R76). -/
theorem composedRow_withFb (m : Memory) {s : State} (hm : s.mode = .fill) :
    (s.withFb m).composedRow = s.composedRow :=
  (composedRow_fill (s := s.withFb m) hm).trans (composedRow_fill hm).symm

/-- Settles O55: outside `S_IDLE` a step without `rst` is the release of a reset or a micro-step, and in a fill frame
the composed row does not come from `FB`. -/
theorem flashIsIndependentOfFb : Obligations.FlashIsIndependentOfFb := by
  intro s t m hm hq hr h
  change step (s.withFb m) = .next (t.withFb m)
  obtain ⟨hwf, ⟨img, hi, -⟩ | ⟨-, hi, rfl⟩ | ⟨-, -, hidle, -⟩ | ⟨-, hi, -, hs⟩⟩ := step_cases h
  · rw [hr] at hi; cases hi
  · exact step_of_inReset hwf hr hi
  · exact absurd hidle hq
  · calc step (s.withFb m)
      _ = sequencerStep (s.tick.withFb m) := step_of_running hwf hr hi hq
      _ = Out.withFb m (sequencerStep s.tick) := sequencerStep_withFb m (composedRow_withFb m hm)
      _ = .next (t.withFb m) := by rw [hs]; rfl

end Sys2Proof.Machine

/-! PROOFS. The frame driver (43_frame_driver): the rows of the micro-sequencer's table, what a step emits, that
ProtocolViolation is unreachable, and the frame operations, their closed form and the micro-steps that run them. -/

namespace Sys2Proof.Machine

/-! ### What FLASH and RENDER write when they are accepted (R88, 44_cycle_controller R96, R97) -/

theorem exec_flash {s : State} (hwf : s.cfg.wf = true) (a : Bool) (n : U16) :
    exec (.flash a n) s = .next (s.latch .fill a n) := by
  rw [exec, execFlash, admitted_next hwf]

theorem exec_render {s : State} (hwf : s.cfg.wf = true) (hb : s.cfg.fbAttached = true) (a : Bool) (n : U16) :
    exec (.render a n) s = .next (s.latch .pixel a n) := by
  rw [exec, execRender, admitted_next hwf, needsFb_next hb]

theorem exec_render_mismatch {s : State} (hwf : s.cfg.wf = true) (hb : s.cfg.fbAttached = false) (a : Bool) (n : U16) :
    exec (.render a n) s = .next (s.raise .bufferSizeMismatch (encode (.render a n))) := by
  rw [exec, execRender, admitted_next hwf, needsFb_mismatch hb]

/-- Settles O49: FLASH makes no check but R7's. -/
theorem flashLatchesItsOperands : Obligations.FlashLatchesItsOperands :=
  fun _ a n hwf => exec_flash hwf a n

/-- Settles O50: the attachment decides between the latches and the fault. -/
theorem renderLatchesItsOperands : Obligations.RenderLatchesItsOperands :=
  fun _ a n hwf => ⟨fun hb => exec_render hwf hb a n, fun hb => exec_render_mismatch hwf hb a n⟩

/-! ### The table, row by row (R88) -/

/-- A command that is accepted in `S_IDLE` leaves it only if it is FLASH or RENDER, and then for `S_CYCLE_CHECK`. -/
theorem exec_leaves_idle {i : Instr} {s t : State} (hq : s.seq = .idle) (h : exec i s = .next t)
    (hne : t.seq ≠ .idle) : t.seq = .cycleCheck ∧ ∃ a n, i = .flash a n ∨ i = .render a n := by
  obtain ⟨-, ⟨-, rfl⟩ | ⟨-, _, _, _, -, -, rfl⟩ | ⟨-, -, rfl⟩ | ⟨-, _, -, rfl⟩ | ⟨-, _, _, _, -, -, -, rfl⟩ |
    ⟨a, n, hi, rfl⟩ | ⟨-, a, n, hi, rfl⟩⟩ := exec_cases h
  · exact absurd rfl hne
  · exact absurd rfl hne
  · exact absurd hq hne
  · exact absurd hq hne
  · exact absurd hq hne
  · exact ⟨rfl, a, n, .inl hi⟩
  · exact ⟨rfl, a, n, .inr hi⟩

/-- A step leaves `S_IDLE` only by accepting FLASH or RENDER. -/
theorem step_leaves_idle {s t : State} (hq : s.seq = .idle) (h : step s = .next t) (hne : t.seq ≠ .idle) :
    s.cmdReady = true ∧ ∃ w a n, s.cmdNow = some w ∧
      (decode w = .instr (.flash a n) ∨ decode w = .instr (.render a n)) ∧ t.seq = .cycleCheck := by
  obtain ⟨-, ⟨_, -, rfl⟩ | ⟨-, -, rfl⟩ | ⟨-, -, -, ⟨w, hw, hready, ha⟩ | ⟨-, rfl⟩⟩ | ⟨-, -, hrun, -⟩⟩ := step_cases h
  · exact absurd rfl hne
  · exact absurd hq hne
  · rcases acceptWord_cases ha with ⟨_, -, rfl⟩ | ⟨i, hd, he⟩
    · exact absurd rfl hne
    · obtain ⟨ht, a, n, hi⟩ := exec_leaves_idle (s := s.tick.popCommand) hq he hne
      refine ⟨hready, w, a, n, hw, ?_, ht⟩
      rw [hd]
      exact hi.imp (congrArg _) (congrArg _)
  · exact absurd hq hne
  · exact absurd hq hrun

theorem step_of_running_row {s : State} (h : s.running) : step s = sequencerStep s.tick := by
  obtain ⟨hwf, hr, hi, hq⟩ := h
  exact step_of_running hwf hr hi hq

/-- The writes of a completed clock-out, written out. -/
theorem tick_emit_clockedOut (s : State) (e : Event) : (s.tick.ackTaken.emit e).clockedOut = { s.tick with
    ackIn := s.ackIn.tail, trace := s.trace ++ [e], rowsOut := s.rowsOut + 1#13, phase := .rowEmitted } := by
  simp only [State.clockedOut, State.emit, State.ackTaken, State.tick]

/-- Settles O37: each row is the sequencer's equation for it, on the state with a step passed at the ports. -/
theorem microStepTable : Obligations.MicroStepTable := by
  refine ⟨fun s h => ?silent, fun s h ha => ?emitting, fun s h ha hreq hstart hstage hend => ?waiting,
    fun s w rest a n hacc => ?accepting, fun s t hq hs hne => step_leaves_idle hq hs hne⟩
  case silent =>
    rw [step_of_running_row h]
    refine ⟨sequencerStep_done (s := s.tick), sequencerStep_again (s := s.tick), sequencerStep_row (s := s.tick),
      sequencerStep_noRow (s := s.tick), fun hq hm => ?_, fun hq hm r hr => ?_, sequencerStep_next (s := s.tick)⟩
    · rw [composeFillRow_eq]
      exact sequencerStep_compose (s := s.tick) hq (composedRow_fill (s := s.tick) hm)
    · have hcomposed : s.tick.composedRow = .ok r := by
        simp only [State.composedRow, State.tick_mode, hm]
        exact hr
      exact sequencerStep_compose (s := s.tick) hq hcomposed
  case emitting =>
    have ha : s.tick.ackNow = true := ha
    rw [step_of_running_row h]
    refine ⟨fun hq hp => sequencerStep_start (s := s.tick) hq hp ha,
      fun hq => sequencerStep_reorder (s := s.tick) hq ha, fun hq hp => ?_,
      fun hq => sequencerStep_switch (s := s.tick) hq ha, fun hq => sequencerStep_stage2 (s := s.tick) hq ha,
      fun hq => ?_, fun hq => ?_,
      fun hq hp ho => sequencerStep_end (s := s.tick) hq ((endValid_iff s.tick).2 ⟨hp, ho⟩) ha⟩
    · have hv : s.tick.emitValid = true := (emitValid_iff s.tick).2 hp
      cases hm : s.mode with
      | fill => exact sequencerStep_stageFill (s := s.tick) hq hv hm ha
      | pixel => exact sequencerStep_stagePixel (s := s.tick) hq hv hm ha
    · rw [sequencerStep_clock (s := s.tick) hq ha, tick_emit_clockedOut]; rfl
    · rw [sequencerStep_trail (s := s.tick) hq ha, tick_emit_clockedOut]; rfl
  case waiting =>
    rw [step_of_running_row h]
    exact sequencerStep_wait (s := s.tick) hreq ha (fun hq => (startValid_iff _).2 (hstart hq))
      (fun hq => (emitValid_iff _).2 (hstage hq)) (fun hq => (endValid_iff _).2 (hend hq))
  case accepting =>
    have hwf : (s.accepted rest).cfg.wf = true := hacc.1
    rw [step_of_accepts hacc]
    refine ⟨fun hd => ?_, fun hd hb => ?_⟩
    · exact (acceptWord_of_instr hd _).trans (exec_flash hwf a n)
    · exact (acceptWord_of_instr hd _).trans (exec_render hwf hb a n)

/-! ### What a step emits (R80, R88) -/

/-- A micro-step emits nothing, or its call, completed. -/
theorem sequencerStep_emits {s t : State} (h : sequencerStep s = .next t) :
    t.trace = s.trace ∨
      ∃ e, s.pendingCall = some e ∧ s.ackNow = true ∧ t.trace = s.trace ++ [e] ∧ t.ackIn = s.ackIn.tail := by
  rcases sequencerStep_cases h with ⟨-, rfl⟩ | ⟨-, -, rfl⟩ | ⟨-, -, rfl⟩ | ⟨-, -, rfl⟩ | ⟨-, -, rfl⟩ |
    ⟨_, -, -, rfl⟩ | ⟨-, rfl⟩ | ⟨-, rfl⟩ | ⟨-, -, rfl⟩ | ⟨ha, hemit⟩
  case inr.inr.inr.inr.inr.inr.inr.inr.inr =>
    right
    rcases hemit with ⟨hq, -, rfl⟩ | ⟨hq, rfl⟩ | ⟨hq, -, -, rfl⟩ | ⟨hq, -, -, rfl⟩ | ⟨hq, rfl⟩ | ⟨hq, rfl⟩ |
      ⟨hq, rfl⟩ | ⟨hq, rfl⟩ | ⟨hq, -, rfl⟩ <;>
    exact ⟨_, by simp only [State.pendingCall, hq], ha, rfl, rfl⟩
  all_goals exact .inl rfl

/-- No command emits in the step that accepts it. -/
theorem acceptWord_trace {w : U32} {s t : State} (h : acceptWord w s = .next t) : t.trace = s.trace := by
  rcases acceptWord_cases h with ⟨_, -, rfl⟩ | ⟨i, -, he⟩
  · rfl
  · obtain ⟨-, ⟨-, rfl⟩ | ⟨-, _, _, _, -, -, rfl⟩ | ⟨-, -, rfl⟩ | ⟨-, _, -, rfl⟩ | ⟨-, _, _, _, -, -, -, rfl⟩ |
      ⟨_, _, -, rfl⟩ | ⟨-, _, _, -, rfl⟩⟩ := exec_cases he <;> rfl

/-- Settles O39: outside a reset only a micro-step emits. -/
theorem atMostTheOnePendingCallIsEmitted : Obligations.AtMostTheOnePendingCallIsEmitted := by
  intro s t hr h
  obtain ⟨-, ⟨img, hi, -⟩ | ⟨-, -, rfl⟩ | ⟨-, -, -, ⟨w, -, -, ha⟩ | ⟨-, rfl⟩⟩ | ⟨-, -, -, hs⟩⟩ := step_cases h
  · rw [hr] at hi; cases hi
  · exact .inl rfl
  · exact .inl (acceptWord_trace (s := s.tick.popCommand) ha)
  · exact .inl rfl
  · exact sequencerStep_emits (s := s.tick) hs

/-! ### ProtocolViolation is unreachable (R92) -/

/-- The fault registers under the invariant: a fault that a command raises, or none. -/
theorem State.Inv.fcode_ne_protocolViolation {s : State} (h : s.Inv) : s.fcode ≠ .protocolViolation := by
  obtain ⟨hclear, hset⟩ := h.faultRegisters
  cases hf : s.fault with
  | false => rw [(hclear hf).1]; decide
  | true => exact (hset hf).2.2

/-- Settles O42: the control tuple has the conditions, and the next state, which meets the invariant too, has no such
fault. -/
theorem protocolViolationIsUnreachable : Obligations.ProtocolViolationIsUnreachable := by
  intro s h
  refine ⟨fun hq => ?_, fun hq => ?_, fun hq => ?_, ?_⟩
  · obtain ⟨-, hphase, -⟩ := controlOk_at h.control hq
    exact hphase
  · obtain ⟨hframe, -⟩ := controlOk_at h.control hq
    exact (emitValid_iff s).1 (inFrame_emitValid hframe)
  · obtain ⟨-, -, hphase, -, hout⟩ := controlOk_at h.control hq
    exact ⟨hphase, hout⟩
  · obtain ⟨t, ht⟩ := stepNeverStopsUnderTheInvariant s h
    exact ⟨t, ht, (stepKeepsTheInvariant s t h ht).fcode_ne_protocolViolation⟩

/-! ### Counts of events (R90, 44_cycle_controller R99) -/

theorem countP_repeatFrame (p : Event → Bool) (n : Nat) (frame : List Event) :
    (repeatFrame n frame).countP p = n * frame.countP p := by
  simp [repeatFrame, List.countP_flatten]

theorem countP_flatMap_range {p : Event → Bool} {rows : Nat → List Event} {k : Nat} (hk : ∀ y, (rows y).countP p = k)
    (h : Nat) : ((List.range h).flatMap rows).countP p = h * k := by
  simp [List.countP_flatMap, Function.comp_def, hk]

/-- Frames of `h` rows with `k` events of a kind in each row and `m` around the rows. -/
theorem countP_frames {p : Event → Bool} {rows : Nat → List Event} {d : U32} {k m : Nat}
    (hk : ∀ y, (rows y).countP p = k) (hm : [.startFrame, .writeRow d, .endFrame].countP p = m) (n h : Nat) :
    (repeatFrame n ([.startFrame] ++ (List.range h).flatMap rows ++ [.writeRow d, .endFrame])).countP p =
      n * (m + h * k) := by
  rw [countP_repeatFrame, List.countP_append, List.countP_append, countP_flatMap_range hk, Nat.add_right_comm,
    ← List.countP_append, List.singleton_append, hm]

theorem countP_fillFrames {p : Event → Bool} {c : Config} {d : U32} {v : Bool} {k m : Nat}
    (hk : (fillRowEvents c d v).countP p = k) (hm : [.startFrame, .writeRow d, .endFrame].countP p = m) (n : Nat) :
    (repeatFrame n (fillFrame c d v)).countP p = n * (m + c.height * k) :=
  countP_frames (fun _ => hk) hm n c.height

theorem countP_pixelFrames {p : Event → Bool} {c : Config} {d : U32} {fb : Memory} {v : Bool} {k m : Nat}
    (hk : ∀ y, (pixRowEvents c d fb y v).countP p = k) (hm : [.startFrame, .writeRow d, .endFrame].countP p = m)
    (n : Nat) : (repeatFrame n (pixelFrame c d fb v)).countP p = n * (m + c.height * k) :=
  countP_frames hk hm n c.height

/-- Settles O48: `k` events of a kind in a row and `m` around the rows; the length counts every event. -/
theorem eventCounts : Obligations.EventCounts := by
  intro c d fb v n
  rw [← List.countP_true]
  constructor
  · exact ⟨(countP_fillFrames (k := 3) (m := 3) rfl rfl n).trans (by ring),
      (countP_fillFrames (k := 0) (m := 1) rfl rfl n).trans (by ring),
      (countP_fillFrames (k := 0) (m := 1) rfl rfl n).trans (by ring),
      (countP_fillFrames (k := 1) (m := 0) rfl rfl n).trans (by ring),
      (countP_fillFrames (k := 1) (m := 0) rfl rfl n).trans (by ring),
      (countP_fillFrames (k := 0) (m := 0) rfl rfl n).trans (by ring),
      (countP_fillFrames (k := 1) (m := 1) rfl rfl n).trans (by ring)⟩
  · exact ⟨(countP_pixelFrames (k := 5) (m := 3) (fun _ => rfl) rfl n).trans (by ring),
      (countP_pixelFrames (k := 0) (m := 1) (fun _ => rfl) rfl n).trans (by ring),
      (countP_pixelFrames (k := 0) (m := 1) (fun _ => rfl) rfl n).trans (by ring),
      (countP_pixelFrames (k := 1) (m := 0) (fun _ => rfl) rfl n).trans (by ring),
      (countP_pixelFrames (k := 2) (m := 0) (fun _ => rfl) rfl n).trans (by ring),
      (countP_pixelFrames (k := 1) (m := 0) (fun _ => rfl) rfl n).trans (by ring),
      (countP_pixelFrames (k := 1) (m := 1) (fun _ => rfl) rfl n).trans (by ring)⟩

/-! ### A frame in closed form (R82 to R87, R89)

Both kinds of frame are one shape: rows `rows y` with the events `events y`, between START_FRAME and END_FRAME. -/

/-- A row done: its events appended, `SCRATCH` holding the row reordered, the row counted. -/
def State.rowDone (r : Row) (events : List Event) (s : State) : State :=
  { s with
    trace := s.trace ++ events
    scratch := reorderRow s.cfg r
    phase := .rowEmitted
    row := s.row + 1#13
    rowsOut := s.rowsOut + 1#13 }

/-- The frame opened in `s`, with `n` rows done. -/
def State.midFrame (rows : Nat → Row) (events : Nat → List Event) (n : Nat) (s : State) : State :=
  { s with
    trace := s.trace ++ .startFrame :: (List.range n).flatMap events
    scratch := if n = 0 then s.scratch else reorderRow s.cfg (rows (n - 1))
    phase := if n = 0 then .frameOpen else .rowEmitted
    row := BitVec.ofNat 13 n
    rowsOut := BitVec.ofNat 13 n }

/-- The frame closed, all its rows done. -/
def State.wholeFrame (rows : Nat → Row) (events : Nat → List Event) (s : State) : State :=
  (((s.midFrame rows events s.cfg.height).emit (.writeRow s.cfgRowDelay)).clockedOut.emit
    .endFrame).frameClosed.frameDone

section Frame

variable {rows : Nat → Row} {events : Nat → List Event} (s : State)

theorem midFrame_zero : s.midFrame rows events 0 = (s.emit .startFrame).frameOpened := rfl

theorem midFrame_succ (n : Nat) :
    (s.midFrame rows events n).rowDone (rows n) (events n) = s.midFrame rows events (n + 1) := by
  simp [State.midFrame, State.rowDone, List.range_succ, BitVec.ofNat_add]

theorem midFrame_emitValid (n : Nat) : (s.midFrame rows events n).emitValid = true := by
  rw [emitValid_iff]
  by_cases hn : n = 0
  · exact .inl (if_pos hn)
  · exact .inr (if_neg hn)

theorem midFrame_row_toNat {n : Nat} (hn : n ≤ 4096) : (s.midFrame rows events n).row.toNat = n :=
  Nat.mod_eq_of_lt (by omega)

theorem midFrame_row_lt (hwf : s.cfg.wf = true) {n : Nat} (hn : n < s.cfg.height) :
    (s.midFrame rows events n).row.toNat < s.cfg.height :=
  (midFrame_row_toNat s (hn.le.trans (Config.height_le hwf))).trans_lt hn

/-- After the trailing row END_FRAME is valid (R85). -/
theorem midFrame_endValid (hwf : s.cfg.wf = true) (e : Event) :
    ((s.midFrame rows events s.cfg.height).emit e).clockedOut.endValid = true := by
  have hH := Config.height_le hwf
  have hrow := midFrame_row_toNat (rows := rows) (events := events) s hH
  exact (endValid_iff _).2 ⟨rfl, ((toNat_add_one (hrow.trans_le hH)).trans (congrArg (· + 1) hrow)).ge⟩

theorem wholeFrame_trace : (s.wholeFrame rows events).trace =
    s.trace ++ ([.startFrame] ++ (List.range s.cfg.height).flatMap events ++ [.writeRow s.cfgRowDelay, .endFrame]) := by
  simp [State.wholeFrame, State.midFrame]

theorem wholeFrame_scratch (hwf : s.cfg.wf = true) :
    (s.wholeFrame rows events).scratch = reorderRow s.cfg (rows (s.cfg.height - 1)) :=
  if_neg (Nat.ne_of_gt (Config.height_pos hwf))

end Frame

@[simp] theorem andThen_done (s : State) (k : State → FrameResult) : (FrameResult.done s).andThen k = k s := rfl

/-- Rows that are done one by one are done in sequence. -/
theorem repeatRow_midFrame {row : State → FrameResult} {rows : Nat → Row} {events : Nat → List Event} {s : State}
    {h : Nat} (hrow : ∀ n, n < h → row (s.midFrame rows events n) = .done (s.midFrame rows events (n + 1))) :
    ∀ k n, n + k = h → repeatRow row k (s.midFrame rows events n) = .done (s.midFrame rows events h)
  | 0, n, hn => by rw [← hn]; rfl
  | k + 1, n, hn => by
    rw [repeatRow, hrow n (by omega)]
    exact repeatRow_midFrame hrow k (n + 1) (by omega)

theorem driveFrame_eq {row : State → FrameResult} {rows : Nat → Row} {events : Nat → List Event} {s : State}
    (hwf : s.cfg.wf = true) (hp : s.phase = .idle) (hrow : ∀ n, n < s.cfg.height →
      row (s.midFrame rows events n) = .done (s.midFrame rows events (n + 1))) :
    driveFrame row s = .done (s.wholeFrame rows events) := by
  have hstart : startFrame s = .done (s.midFrame rows events 0) := by
    rw [midFrame_zero]
    exact if_pos ((startValid_iff s).2 hp)
  have hrows := repeatRow_midFrame hrow s.cfg.height 0 (Nat.zero_add _)
  rw [driveFrame, hstart, andThen_done, hrows, andThen_done, trailingRow, andThen_done, endFrame,
    if_pos (midFrame_endValid s hwf _), andThen_done]
  rfl

/-! ### The two kinds of rows (R86, R87, R89) -/

/-- EMIT_ROW staging its row once, while a frame is open (R83). -/
theorem emitRow_once {s : State} (hv : s.emitValid = true) :
    emitRow false s = .done ((s.emit (.stage s.scratch)).emit (.writeRow s.cfgRowDelay)).clockedOut :=
  if_pos hv

/-- EMIT_ROW staging its row in both slots. -/
theorem emitRow_twice {s : State} (hv : s.emitValid = true) :
    emitRow true s = .done ((((s.emit (.stage s.scratch)).emit .switchBuffer).emit (.stage s.scratch)).emit
      (.writeRow s.cfgRowDelay)).clockedOut :=
  if_pos hv

theorem driveFillRow_eq {s : State} (hv : s.emitValid = true) (c : Bool) :
    driveFillRow c s = .done (s.rowDone (fillRow s.cfg c) (fillRowEvents s.cfg s.cfgRowDelay c)) := by
  have hv' : (reorderScratch { s with scratch := fillRow s.cfg c }).emitValid = true := hv
  rw [driveFillRow, composeFillRow_eq, emitRow_once hv', andThen_done]
  simp [reorderScratch, State.rowDone, State.emit, State.clockedOut, State.rowAdvanced, fillRowEvents]

theorem drivePixelRow_eq {s : State} (hwf : s.cfg.wf = true) (hv : s.emitValid = true)
    (hr : s.row.toNat < s.cfg.height) (inv : Bool) :
    drivePixelRow inv s = .done (s.rowDone (pixRow s.cfg s.fb s.row.toNat inv)
      (pixRowEvents s.cfg s.cfgRowDelay s.fb s.row.toNat inv)) := by
  have hv' : (reorderScratch { s with scratch := pixRow s.cfg s.fb s.row.toNat inv }).emitValid = true := hv
  rw [drivePixelRow, composePixelRow_ok hwf hr inv]
  simp only [emitRow_twice hv', andThen_done]
  simp [reorderScratch, State.rowDone, State.emit, State.clockedOut, State.rowAdvanced, pixRowEvents]

theorem driveFillRow_midFrame (s : State) (c : Bool) (n : Nat) :
    driveFillRow c (s.midFrame (fun _ => fillRow s.cfg c) (fun _ => fillRowEvents s.cfg s.cfgRowDelay c) n) = .done
      (s.midFrame (fun _ => fillRow s.cfg c) (fun _ => fillRowEvents s.cfg s.cfgRowDelay c) (n + 1)) :=
  (driveFillRow_eq (midFrame_emitValid s n) c).trans (congrArg _ (midFrame_succ s n))

theorem drivePixelRow_midFrame {s : State} (hwf : s.cfg.wf = true) (inv : Bool) {n : Nat} (hn : n < s.cfg.height) :
    drivePixelRow inv
        (s.midFrame (pixRow s.cfg s.fb · inv) (pixRowEvents s.cfg s.cfgRowDelay s.fb · inv) n) = .done
      (s.midFrame (pixRow s.cfg s.fb · inv) (pixRowEvents s.cfg s.cfgRowDelay s.fb · inv) (n + 1)) := by
  rw [drivePixelRow_eq (s := s.midFrame _ _ n) hwf (midFrame_emitValid s n) (midFrame_row_lt s hwf hn),
    midFrame_row_toNat s (hn.le.trans (Config.height_le hwf))]
  exact congrArg _ (midFrame_succ s n)

theorem driveFillFrame_eq {s : State} (hwf : s.cfg.wf = true) (hp : s.phase = .idle) (c : Bool) :
    driveFillFrame c s = .done
      (s.wholeFrame (fun _ => fillRow s.cfg c) fun _ => fillRowEvents s.cfg s.cfgRowDelay c) :=
  driveFrame_eq hwf hp fun n _ => driveFillRow_midFrame s c n

theorem drivePixelFrame_eq {s : State} (hwf : s.cfg.wf = true) (hp : s.phase = .idle) (inv : Bool) :
    drivePixelFrame inv s = .done
      (s.wholeFrame (pixRow s.cfg s.fb · inv) (pixRowEvents s.cfg s.cfgRowDelay s.fb · inv)) :=
  driveFrame_eq hwf hp fun _ hn => drivePixelRow_midFrame hwf inv hn

/-- Settles O46: both frames are `wholeFrame` of their rows. -/
theorem frameOperationsHaveTheClosedForm : Obligations.FrameOperationsHaveTheClosedForm := by
  intro s hwf hp
  exact ⟨fun c => ⟨_, driveFillFrame_eq hwf hp c, wholeFrame_trace s, rfl, rfl, wholeFrame_scratch s hwf⟩,
    fun inv => ⟨_, drivePixelFrame_eq hwf hp inv, wholeFrame_trace s, rfl, rfl, wholeFrame_scratch s hwf⟩⟩

/-! ### The micro-steps that run a frame (R86 to R88)

With no reset and every call returning, a micro-step changes its state only by its row of the table. What the host
presents meanwhile is of no account. -/

/-- The block at the micro-state `q` with `cmds` at its command port. -/
def State.atSeq (q : Seq) (cmds : List (Option U32)) (s : State) : State := { s with seq := q, cmdIn := cmds }

/-- An admitted configuration, no reset, and every call returning (70_reset R137). -/
def State.undisturbed (s : State) : Prop := s.cfg.wf = true ∧ s.noReset ∧ s.callsReturn

theorem State.undisturbed.admitted {s : State} (h : s.undisturbed) : s.cfg.wf = true := h.1

/-- `k` steps from `s` at the micro-state `p` lead to `t` at `q`, whatever words are at the port. -/
def Reaches (k : Nat) (p : Seq) (s : State) (q : Seq) (t : State) : Prop :=
  ∀ cmds, ∃ cmds', run k (s.atSeq p cmds) = .next (t.atSeq q cmds')

theorem Reaches.refl (p : Seq) (s : State) : Reaches 0 p s p s := fun cmds => ⟨cmds, rfl⟩

theorem Reaches.trans {k l : Nat} {p q r : Seq} {s t u : State} (h : Reaches k p s q t) (h' : Reaches l q t r u) :
    Reaches (k + l) p s r u := fun cmds => by
  obtain ⟨cmds', e⟩ := h cmds
  obtain ⟨cmds'', e'⟩ := h' cmds'
  exact ⟨cmds'', (run_append e).trans e'⟩

section MicroSteps

variable {s : State} (h : s.undisturbed)

include h

/-- One row of the table is one step. -/
theorem reaches_one {p q : Seq} {t : State} (hp : p ≠ .idle)
    (hs : ∀ cmds, sequencerStep (s.atSeq p cmds) = .next (t.atSeq q cmds)) : Reaches 1 p s q t := fun cmds => by
  obtain ⟨hwf, ⟨hrst, hi⟩, -⟩ := h
  have htick : (s.atSeq p cmds).tick = s.atSeq p (heldCommands cmds) := by simp [State.tick, State.atSeq, hrst]
  refine ⟨heldCommands cmds, run_one ?_⟩
  rw [step_of_running (s := s.atSeq p cmds) hwf (rstNow_nil hrst) hi hp, htick, hs]

/-- A row that makes a call, which returns. -/
theorem reaches_call {p q : Seq} {t : State} (hp : p ≠ .idle) (hack : t.ackIn = s.ackIn)
    (hs : ∀ cmds, (s.atSeq p cmds).ackNow = true →
      sequencerStep (s.atSeq p cmds) = .next (t.atSeq q cmds).ackTaken) : Reaches 1 p s q t := by
  have ⟨_, _, hreturn⟩ := h
  refine reaches_one h hp fun cmds => (hs cmds (ackNow_of_callsReturn hreturn)).trans ?_
  simp [State.ackTaken, State.atSeq, hack, hreturn.1]

theorem reaches_start (hp : s.phase = .idle) : Reaches 1 .start s .rowCheck (s.emit .startFrame).frameOpened :=
  reaches_call h nofun rfl fun cmds ha => sequencerStep_start (s := s.atSeq .start cmds) rfl hp ha

theorem reaches_row (hr : s.row.toNat < s.cfg.height) : Reaches 1 .rowCheck s .compose s :=
  reaches_one h nofun fun cmds => sequencerStep_row (s := s.atSeq .rowCheck cmds) rfl hr

theorem reaches_noRow (hr : s.cfg.height ≤ s.row.toNat) : Reaches 1 .rowCheck s .trail s :=
  reaches_one h nofun fun cmds => sequencerStep_noRow (s := s.atSeq .rowCheck cmds) rfl hr

theorem reaches_compose {r : Row} (hr : s.composedRow = .ok r) :
    Reaches 1 .compose s .reorder { s with scratch := r } :=
  reaches_one h nofun fun cmds => sequencerStep_compose (s := s.atSeq .compose cmds) rfl hr

theorem reaches_reorder : Reaches 1 .reorder s .stage1 (reorderScratch s) :=
  reaches_call h nofun rfl fun cmds ha => sequencerStep_reorder (s := s.atSeq .reorder cmds) rfl ha

theorem reaches_stageFill (hv : s.emitValid = true) (hm : s.mode = .fill) :
    Reaches 1 .stage1 s .clock (s.emit (.stage s.scratch)) :=
  reaches_call h nofun rfl fun cmds ha => sequencerStep_stageFill (s := s.atSeq .stage1 cmds) rfl hv hm ha

theorem reaches_stagePixel (hv : s.emitValid = true) (hm : s.mode = .pixel) :
    Reaches 1 .stage1 s .switch (s.emit (.stage s.scratch)) :=
  reaches_call h nofun rfl fun cmds ha => sequencerStep_stagePixel (s := s.atSeq .stage1 cmds) rfl hv hm ha

theorem reaches_switch : Reaches 1 .switch s .stage2 (s.emit .switchBuffer) :=
  reaches_call h nofun rfl fun cmds ha => sequencerStep_switch (s := s.atSeq .switch cmds) rfl ha

theorem reaches_stage2 : Reaches 1 .stage2 s .clock (s.emit (.stage s.scratch)) :=
  reaches_call h nofun rfl fun cmds ha => sequencerStep_stage2 (s := s.atSeq .stage2 cmds) rfl ha

theorem reaches_clock : Reaches 1 .clock s .rowCheck (s.emit (.writeRow s.cfgRowDelay)).clockedOut.rowAdvanced :=
  reaches_call h nofun rfl fun cmds ha => sequencerStep_clock (s := s.atSeq .clock cmds) rfl ha

theorem reaches_trail : Reaches 1 .trail s .endFrame (s.emit (.writeRow s.cfgRowDelay)).clockedOut :=
  reaches_call h nofun rfl fun cmds ha => sequencerStep_trail (s := s.atSeq .trail cmds) rfl ha

theorem reaches_end (hv : s.endValid = true) : Reaches 1 .endFrame s .next (s.emit .endFrame).frameClosed :=
  reaches_call h nofun rfl fun cmds ha => sequencerStep_end (s := s.atSeq .endFrame cmds) rfl hv ha

theorem reaches_next : Reaches 1 .next s .cycleCheck ({ s with cyc := s.cyc - 1#16 } : State).frameDone :=
  reaches_one h nofun fun cmds => sequencerStep_next (s := s.atSeq .next cmds) rfl

end MicroSteps

/-- A row of either kind up to EMIT_ROW. -/
theorem reaches_reorderScratch {s : State} (h : s.undisturbed) (hr : s.row.toNat < s.cfg.height) {r : Row}
    (hc : s.composedRow = .ok r) : Reaches 3 .rowCheck s .stage1 (reorderScratch { s with scratch := r }) :=
  ((reaches_row h hr).trans (reaches_compose h hc)).trans (reaches_reorder (s := { s with scratch := r }) h)

/-- EMIT_ROW of a fill frame, with the row counted. -/
theorem reaches_emitRow_once {s t : State} (h : s.undisturbed) (hv : s.emitValid = true) (hm : s.mode = .fill)
    (ht : emitRow false s = .done t) : Reaches 2 .stage1 s .rowCheck t.rowAdvanced := by
  rw [emitRow_once hv] at ht
  cases ht
  exact (reaches_stageFill h hv hm).trans (reaches_clock (s := s.emit (.stage s.scratch)) h)

/-- EMIT_ROW of a pixel frame, with the row counted. -/
theorem reaches_emitRow_twice {s t : State} (h : s.undisturbed) (hv : s.emitValid = true) (hm : s.mode = .pixel)
    (ht : emitRow true s = .done t) : Reaches 4 .stage1 s .rowCheck t.rowAdvanced := by
  rw [emitRow_twice hv] at ht
  cases ht
  have hswitch := (reaches_stagePixel h hv hm).trans (reaches_switch (s := s.emit (.stage s.scratch)) h)
  have hstage := hswitch.trans (reaches_stage2 (s := (s.emit (.stage s.scratch)).emit .switchBuffer) h)
  exact hstage.trans (reaches_clock
    (s := ((s.emit (.stage s.scratch)).emit .switchBuffer).emit (.stage s.scratch)) h)

section Row

variable {s t : State} (h : s.undisturbed) (hv : s.emitValid = true) (hr : s.row.toNat < s.cfg.height)

include h hv hr

/-- The five micro-steps of a row of a fill frame. -/
theorem reaches_driveFillRow (hm : s.mode = .fill) (ht : driveFillRow s.a s = .done t) :
    Reaches 5 .rowCheck s .rowCheck t := by
  have hv' : (reorderScratch { s with scratch := fillRow s.cfg s.a }).emitValid = true := hv
  rw [driveFillRow, composeFillRow_eq, emitRow_once hv', andThen_done] at ht
  cases ht
  exact (reaches_reorderScratch h hr (composedRow_fill hm)).trans (reaches_emitRow_once h hv' hm (emitRow_once hv'))

/-- The seven micro-steps of a row of a pixel frame. -/
theorem reaches_drivePixelRow (hm : s.mode = .pixel) (ht : drivePixelRow s.a s = .done t) :
    Reaches 7 .rowCheck s .rowCheck t := by
  have hv' : (reorderScratch { s with scratch := pixRow s.cfg s.fb s.row.toNat s.a }).emitValid = true := hv
  rw [drivePixelRow, composePixelRow_ok h.admitted hr] at ht
  simp only [emitRow_twice hv', andThen_done] at ht
  cases ht
  exact (reaches_reorderScratch h hr (composedRow_pixel h.admitted hm hr)).trans
    (reaches_emitRow_twice h hv' hm (emitRow_twice hv'))

end Row

/-- `H` rows of `m` micro-steps each. -/
theorem reaches_rows {rows : Nat → Row} {events : Nat → List Event} {s : State} {m h : Nat}
    (hrow : ∀ n, n < h → Reaches m .rowCheck (s.midFrame rows events n) .rowCheck (s.midFrame rows events (n + 1))) :
    ∀ n, n ≤ h → Reaches (m * n) .rowCheck (s.midFrame rows events 0) .rowCheck (s.midFrame rows events n)
  | 0, _ => Reaches.refl _ _
  | n + 1, hn => (reaches_rows hrow n (by omega)).trans (hrow n hn)

/-- The micro-steps of a frame with `m` of them in each row. -/
theorem reaches_wholeFrame {rows : Nat → Row} {events : Nat → List Event} {s : State} {m : Nat} (h : s.undisturbed)
    (hp : s.phase = .idle) (hrow : ∀ n, n < s.cfg.height →
      Reaches m .rowCheck (s.midFrame rows events n) .rowCheck (s.midFrame rows events (n + 1))) :
    Reaches (m * s.cfg.height + 5) .start s .cycleCheck { s.wholeFrame rows events with cyc := s.cyc - 1#16 } := by
  have hH := Config.height_le h.admitted
  have hlast := midFrame_row_toNat (rows := rows) (events := events) s hH
  have hrows := (reaches_start h hp).trans (reaches_rows hrow s.cfg.height le_rfl)
  have htrail := (reaches_noRow (s := s.midFrame rows events s.cfg.height) h hlast.ge).trans (reaches_trail h)
  have hout : ((s.midFrame rows events s.cfg.height).emit (.writeRow s.cfgRowDelay)).clockedOut.undisturbed := h
  have hend := (reaches_end hout (midFrame_endValid s h.admitted _)).trans
    (reaches_next (s := State.frameClosed _) h)
  have hcount : m * s.cfg.height + 5 = 1 + m * s.cfg.height + (1 + 1) + (1 + 1) := by omega
  rw [hcount]
  exact (hrows.trans htrail).trans hend

/-- The micro-steps of DRIVE_FILL_FRAME. -/
theorem reaches_driveFillFrame {s t : State} (h : s.undisturbed) (hp : s.phase = .idle) (hm : s.mode = .fill)
    (ht : driveFillFrame s.a s = .done t) :
    Reaches (5 * s.cfg.height + 5) .start s .cycleCheck { t with cyc := s.cyc - 1#16 } := by
  rw [driveFillFrame_eq h.admitted hp] at ht
  cases ht
  refine reaches_wholeFrame h hp fun n hn => ?_
  exact reaches_driveFillRow (s := s.midFrame _ _ n) h (midFrame_emitValid s n) (midFrame_row_lt s h.admitted hn) hm
    (driveFillRow_midFrame s s.a n)

/-- The micro-steps of DRIVE_PIXEL_FRAME. -/
theorem reaches_drivePixelFrame {s t : State} (h : s.undisturbed) (hp : s.phase = .idle) (hm : s.mode = .pixel)
    (ht : drivePixelFrame s.a s = .done t) :
    Reaches (7 * s.cfg.height + 5) .start s .cycleCheck { t with cyc := s.cyc - 1#16 } := by
  rw [drivePixelFrame_eq h.admitted hp] at ht
  cases ht
  refine reaches_wholeFrame h hp fun n hn => ?_
  exact reaches_drivePixelRow (s := s.midFrame _ _ n) h (midFrame_emitValid s n) (midFrame_row_lt s h.admitted hn) hm
    (drivePixelRow_midFrame h.admitted s.a hn)

/-- Settles O47: the frame's micro-steps, from the state itself at `S_START` with its own words at the port. -/
theorem sequencerRunsTheFrameOperations : Obligations.SequencerRunsTheFrameOperations := by
  intro s u hwf hn hack hq hp
  have hs : s.atSeq .start s.cmdIn = s := by rw [← hq]; rfl
  refine ⟨fun hm hu => ?_, fun hm hu => ?_⟩
  · obtain ⟨cmds, e⟩ := reaches_driveFillFrame ⟨hwf, hn, hack⟩ hp hm hu s.cmdIn
    rw [hs] at e
    exact ⟨cmds, e⟩
  · obtain ⟨cmds, e⟩ := reaches_drivePixelFrame ⟨hwf, hn, hack⟩ hp hm hu s.cmdIn
    rw [hs] at e
    exact ⟨cmds, e⟩

end Sys2Proof.Machine

/-! PROOFS. The cycle controller (44_cycle_controller): what a step can change while a command runs, N frames in closed
form and the micro-steps that drive them, FLASH and RENDER run to their end, and N = 0. -/

namespace Sys2Proof.Machine

/-! ### A running command (R100) -/

/-- `CYC` is counted down in `S_NEXT`, where a frame ends, and is kept by every other micro-step, wait or fault. -/
theorem sequencerStep_cyc {s t : State} (h : sequencerStep s = .next t) :
    t.cyc = s.cyc ∨ s.seq = .next ∧ t.phase = .idle ∧ t.seq = .cycleCheck ∧ t.cyc = s.cyc - 1#16 := by
  rcases sequencerStep_cases h with ⟨-, rfl⟩ | ⟨-, -, rfl⟩ | ⟨-, -, rfl⟩ | ⟨-, -, rfl⟩ | ⟨-, -, rfl⟩ |
    ⟨_, -, -, rfl⟩ | ⟨hq, rfl⟩ | ⟨-, rfl⟩ | ⟨-, -, rfl⟩ | ⟨-, ⟨-, -, rfl⟩ | ⟨-, rfl⟩ | ⟨-, -, -, rfl⟩ |
      ⟨-, -, -, rfl⟩ | ⟨-, rfl⟩ | ⟨-, rfl⟩ | ⟨-, rfl⟩ | ⟨-, rfl⟩ | ⟨-, -, rfl⟩⟩
  case inr.inr.inr.inr.inr.inr.inl => exact .inr ⟨hq, rfl, rfl, rfl⟩
  all_goals exact .inl rfl

/-- Settles O40: a step outside `S_IDLE` is the release of a reset, which leaves all of this alone, or a micro-step. -/
theorem runningCommandCannotBeDisturbed : Obligations.RunningCommandCannotBeDisturbed := by
  intro s t hq hr h
  obtain ⟨-, ⟨img, hi, -⟩ | ⟨-, -, rfl⟩ | ⟨-, -, hidle, -⟩ | ⟨-, -, -, hs⟩⟩ := step_cases h
  · rw [hr] at hi; cases hi
  · exact ⟨rfl, rfl, rfl, rfl, rfl, rfl, .inl rfl⟩
  · exact absurd hidle hq
  · obtain ⟨hfb, hcfg, hdelay, hmode, ha, hcmd, -, -⟩ := sequencerStep_frame hs
    exact ⟨hfb, hmode, ha, hcfg, hdelay, hcmd, sequencerStep_cyc (s := s.tick) hs⟩

/-! ### Frames in closed form (R96, R97, R99)

A command drives frames that are all `wholeFrame` of the same rows, since nothing they read of the state changes. -/

/-- `n` frames driven from `s`, a state with `PHASE` = `Idle`, and counted. -/
def State.framesDone (rows : Nat → Row) (events : Nat → List Event) (n : Nat) (s : State) : State :=
  { s with
    trace := s.trace ++ repeatFrame n
      ([.startFrame] ++ (List.range s.cfg.height).flatMap events ++ [.writeRow s.cfgRowDelay, .endFrame])
    scratch := if n = 0 then s.scratch else reorderRow s.cfg (rows (s.cfg.height - 1))
    row := if n = 0 then s.row else BitVec.ofNat 13 s.cfg.height
    rowsOut := if n = 0 then s.rowsOut else BitVec.ofNat 13 s.cfg.height + 1#13
    cyc := s.cyc - BitVec.ofNat 16 n }

/-- `CYC` counted down by its own value. -/
theorem sub_ofNat_toNat (c : U16) : c - BitVec.ofNat 16 c.toNat = 0#16 := by
  rw [BitVec.ofNat_toNat, BitVec.setWidth_eq, BitVec.sub_self]

theorem repeatFrame_succ (n : Nat) (frame : List Event) :
    repeatFrame (n + 1) frame = repeatFrame n frame ++ frame := by
  simp [repeatFrame, List.replicate_succ']

section Frames

variable {rows : Nat → Row} {events : Nat → List Event} {s : State}

theorem framesDone_zero : s.framesDone rows events 0 = s := by
  simp [State.framesDone, repeatFrame]

theorem framesDone_succ (hwf : s.cfg.wf = true) (hp : s.phase = .idle) (n : Nat) :
    { (s.framesDone rows events n).wholeFrame rows events with cyc := (s.framesDone rows events n).cyc - 1#16 } =
      s.framesDone rows events (n + 1) := by
  have hH : s.cfg.height ≠ 0 := Nat.ne_of_gt (Config.height_pos hwf)
  simp [State.wholeFrame, State.midFrame, State.framesDone, State.emit, State.clockedOut, State.frameClosed,
    State.frameDone, repeatFrame_succ, hH, hp, BitVec.ofNat_add, BitVec.sub_sub]

theorem framesDone_cyc_ne_zero {n : Nat} (hn : n < s.cyc.toNat) : (s.framesDone rows events n).cyc ≠ 0#16 := by
  change s.cyc - BitVec.ofNat 16 n ≠ 0#16
  bv_omega

end Frames

/-! ### The micro-steps that drive them (R88) -/

section MicroSteps

variable {s : State} (h : s.undisturbed)

include h

theorem reaches_again (hc : s.cyc ≠ 0#16) : Reaches 1 .cycleCheck s .start s :=
  reaches_one h nofun fun cmds => sequencerStep_again (s := s.atSeq .cycleCheck cmds) rfl hc

theorem reaches_done (hc : s.cyc = 0#16) : Reaches 1 .cycleCheck s .idle { s with busy := false } :=
  reaches_one h nofun fun cmds => sequencerStep_done (s := s.atSeq .cycleCheck cmds) rfl hc

end MicroSteps

section Command

variable {rows : Nat → Row} {events : Nat → List Event} {s : State} {k : Nat} (h : s.undisturbed)
  (hp : s.phase = .idle)
  (hframe : ∀ n, Reaches k .start (s.framesDone rows events n) .cycleCheck
    { (s.framesDone rows events n).wholeFrame rows events with cyc := (s.framesDone rows events n).cyc - 1#16 })

include h hp hframe

/-- As many frames as `CYC` still counts, of `k` micro-steps after `S_CYCLE_CHECK` each. -/
theorem reaches_frames : ∀ n, n ≤ s.cyc.toNat →
    Reaches (n * (k + 1)) .cycleCheck s .cycleCheck (s.framesDone rows events n)
  | 0, _ => by
    rw [framesDone_zero, Nat.zero_mul]
    exact Reaches.refl _ _
  | n + 1, hn => by
    have hagain := reaches_again (s := s.framesDone rows events n) h (framesDone_cyc_ne_zero hn)
    have hnext := hagain.trans (hframe n)
    rw [framesDone_succ h.admitted hp, Nat.add_comm 1 k] at hnext
    rw [Nat.succ_mul]
    exact (reaches_frames n (Nat.le_of_succ_le hn)).trans hnext

/-- All the frames that `CYC` counts, and the end of the command. -/
theorem reaches_commandEnd : Reaches (s.cyc.toNat * (k + 1) + 1) .cycleCheck s .idle
    { s.framesDone rows events s.cyc.toNat with busy := false } :=
  (reaches_frames h hp hframe _ le_rfl).trans (reaches_done (s := s.framesDone rows events _) h (sub_ofNat_toNat s.cyc))

end Command

/-! ### FLASH and RENDER (R96, R97) -/

/-- A fill command from `S_CYCLE_CHECK` to its end. -/
theorem reaches_fillCommandEnd {s : State} (h : s.undisturbed) (hp : s.phase = .idle) (hm : s.mode = .fill) :
    Reaches (s.cyc.toNat * fillFrameSteps s.cfg.height + 1) .cycleCheck s .idle
      { s.framesDone (fun _ => fillRow s.cfg s.a) (fun _ => fillRowEvents s.cfg s.cfgRowDelay s.a) s.cyc.toNat with
        busy := false } :=
  reaches_commandEnd h hp fun n => reaches_driveFillFrame (s := s.framesDone _ _ n) h hp hm
    (driveFillFrame_eq (s := s.framesDone _ _ n) h.admitted hp s.a)

/-- A pixel command from `S_CYCLE_CHECK` to its end. -/
theorem reaches_pixelCommandEnd {s : State} (h : s.undisturbed) (hp : s.phase = .idle) (hm : s.mode = .pixel) :
    Reaches (s.cyc.toNat * pixelFrameSteps s.cfg.height + 1) .cycleCheck s .idle
      { s.framesDone (pixRow s.cfg s.fb · s.a) (pixRowEvents s.cfg s.cfgRowDelay s.fb · s.a) s.cyc.toNat with
        busy := false } :=
  reaches_commandEnd h hp fun n => reaches_drivePixelFrame (s := s.framesDone _ _ n) h hp hm
    (drivePixelFrame_eq (s := s.framesDone _ _ n) h.admitted hp s.a)

/-- Settles O51: the latched state runs through `N` fill frames to the end. -/
theorem flashRunsToItsEnd : Obligations.FlashRunsToItsEnd := by
  intro s a n hwf hn hack hp
  obtain ⟨cmds, hrun⟩ := reaches_fillCommandEnd (s := s.latch .fill a n) ⟨hwf, hn, hack⟩ hp rfl s.cmdIn
  exact ⟨_, _, exec_flash hwf a n, rfl, hrun, rfl, rfl, rfl, hp, sub_ofNat_toNat n,
    rfl, rfl, rfl, rfl, rfl, rfl, rfl, rfl⟩

/-- Settles O52: the same with `N` pixel frames, after the check of the attachment. -/
theorem renderRunsToItsEnd : Obligations.RenderRunsToItsEnd := by
  intro s a n hwf hn hack hp
  refine ⟨fun hb => ?_, fun hb => exec_render_mismatch hwf hb a n⟩
  obtain ⟨cmds, hrun⟩ := reaches_pixelCommandEnd (s := s.latch .pixel a n) ⟨hwf, hn, hack⟩ hp rfl s.cmdIn
  exact ⟨_, _, exec_render hwf hb a n, rfl, hrun, rfl, rfl, rfl, hp, sub_ofNat_toNat n,
    rfl, rfl, rfl, rfl, rfl, rfl, rfl, rfl⟩

/-! ### N = 0 (R98) -/

/-- A command latched with `N` = 0 ends in the next step. -/
theorem step_latch_zero {s : State} (hwf : s.cfg.wf = true) (hr : s.rstNow = none) (hi : s.inReset = false)
    (m : Mode) (a : Bool) : step (s.latch m a 0#16) =
      .next (({ (s.latch m a 0#16).tick with busy := false } : State).goto .idle) :=
  (step_of_running (s := s.latch m a 0#16) hwf hr hi nofun).trans
    (sequencerStep_done (s := (s.latch m a 0#16).tick) rfl rfl)

/-- Settles O53: no step of the two makes a call, so the transport's answers are not looked at. -/
theorem zeroCyclesDriveNothing : Obligations.ZeroCyclesDriveNothing := by
  intro s a hwf hr hi
  refine ⟨?_, fun hb => ?_, fun hb => ⟨_, exec_render_mismatch hwf hb a 0#16, rfl, rfl⟩⟩
  · exact ⟨_, _, exec_flash hwf a 0#16, rfl, step_latch_zero hwf hr hi .fill a, rfl, rfl, rfl, rfl, rfl⟩
  · exact ⟨_, _, exec_render hwf hb a 0#16, rfl, step_latch_zero hwf hr hi .pixel a, rfl, rfl, rfl, rfl, rfl⟩

end Sys2Proof.Machine

/-! PROOFS. The exceptions (60_exceptions): the trace stays in the grammar of R119, what a transport call carries, the
block's four faults, each raised by its rule and with no other effect, that FAULT is sticky, and a hung transport. -/

namespace Sys2Proof.Machine

/-! ### The grammar of the trace (R119, 70_reset R131 to R133) -/

/-- Reading one event more. -/
theorem readAll_append_single {c : Config} {es : List Event} (e : Event) : ∀ {p q : TracePos},
    TracePos.readAll c p es = some q → TracePos.readAll c p (es ++ [e]) = q.read c e := by
  induction es with
  | nil =>
    intro p q h
    cases h
    simp only [List.nil_append, TracePos.readAll]
    cases p.read c e <;> rfl
  | cons e' es ih =>
    intro p q h
    simp only [List.cons_append, TracePos.readAll] at h ⊢
    cases hp : p.read c e' with
    | none => simp [hp] at h
    | some p' =>
      simp only [hp] at h ⊢
      exact ih h

namespace State.traceOk

variable {s t : State} {q : Seq}

/-- A step from the micro-state `q` that emits nothing and leaves the sequencer at the same place of the grammar. -/
theorem silent (h : s.traceOk) (hq : s.seq = q) (htrace : t.trace = s.trace) (hcfg : t.cfg = s.cfg)
    (hpos : ∀ p, (s.goto q).atPos p → t.atPos p) : t.traceOk := by
  subst hq
  obtain ⟨p, hread, hp⟩ := h
  refine ⟨p, ?_, hpos p hp⟩
  rw [htrace, hcfg]
  exact hread

/-- A step from `q` that emits an event which the grammar allows there and which leads to the sequencer's next place. -/
theorem emits (h : s.traceOk) (hq : s.seq = q) {e : Event} (htrace : t.trace = s.trace ++ [e]) (hcfg : t.cfg = s.cfg)
    (hpos : ∀ p, (s.goto q).atPos p → ∃ p', p.read s.cfg e = some p' ∧ t.atPos p') : t.traceOk := by
  subst hq
  obtain ⟨p, hread, hp⟩ := h
  obtain ⟨p', hevent, hp'⟩ := hpos p hp
  refine ⟨p', ?_, hp'⟩
  rw [htrace, hcfg, readAll_append_single e hread, hevent]

end State.traceOk

/-- If the kind of the open frame's rows is known, it is the command's own. -/
theorem frameKind_ne {s : State} {m : Mode} (hm : s.mode ≠ m) : s.frameKind ≠ some m := by
  unfold State.frameKind
  split
  · nofun
  · exact fun e => hm (Option.some.inj e)

/-- The place in the grammar after a clock-out of a real row: one row more, of the command's kind (R119). -/
theorem betweenRows_clockedOut {s : State} (hr : s.row.toNat ≤ 4096) :
    TracePos.betweenRows s.clockedOut.rowAdvanced.row.toNat s.clockedOut.rowAdvanced.frameKind =
      .betweenRows (s.row.toNat + 1) (some s.mode) := by
  have hrow : s.clockedOut.rowAdvanced.row.toNat = s.row.toNat + 1 := toNat_add_one hr
  have hne : s.clockedOut.rowAdvanced.row ≠ 0#13 := fun e => by rw [e] at hrow; simp at hrow
  rw [hrow, State.frameKind, if_neg hne]
  rfl

/-- In `S_CLOCK` a fill frame's row has been staged once. -/
theorem atPos_clock_fill {s : State} {p : TracePos} (hm : s.mode = .fill) :
    (s.goto .clock).atPos p ↔ p = .staged s.row.toNat s.frameKind s.scratch := by
  simp [State.atPos, State.frameKind, hm]

/-- In `S_CLOCK` a pixel frame's row has been staged in both slots. -/
theorem atPos_clock_pixel {s : State} {p : TracePos} (hm : s.mode = .pixel) :
    (s.goto .clock).atPos p ↔ p = .stagedTwice s.row.toNat := by
  simp [State.atPos, hm]

/-- Row by row of the table of 43_frame_driver R88: the event of a micro-step is the one the grammar has next, because
of where the invariant has `ROW`, `MODE` and `CFG_ROW_DELAY`. -/
theorem sequencerStep_keeps_traceOk {s t : State} (h : s.Inv) (hidle : s.seq ≠ .idle) (ht : s.traceOk)
    (hs : sequencerStep s = .next t) : t.traceOk := by
  have hc := h.control
  have hH := Config.height_le h.admitted
  rcases sequencerStep_cases hs with ⟨hq, -⟩ | ⟨hq, -, rfl⟩ | ⟨hq, -, rfl⟩ | ⟨hq, -, rfl⟩ | ⟨hq, -, rfl⟩ |
    ⟨r, hq, -, rfl⟩ | ⟨hq, rfl⟩ | ⟨hv, -⟩ | ⟨-, -, rfl⟩ | ⟨-, ⟨hq, -, rfl⟩ | ⟨hq, rfl⟩ | ⟨hq, -, hm, rfl⟩ |
      ⟨hq, -, hm, rfl⟩ | ⟨hq, rfl⟩ | ⟨hq, rfl⟩ | ⟨hq, rfl⟩ | ⟨hq, rfl⟩ | ⟨hq, -, rfl⟩⟩
  · exact absurd hq hidle
  · -- `S_CYCLE_CHECK`, no cycle left
    exact ht.silent hq rfl rfl fun _ hp => hp
  · -- `S_CYCLE_CHECK`, another frame
    exact ht.silent hq rfl rfl fun _ hp => hp
  · -- `S_ROW_CHECK`, another row
    exact ht.silent hq rfl rfl fun _ hp => hp
  · -- `S_ROW_CHECK`, every row clocked out
    exact ht.silent hq rfl rfl fun _ hp => hp
  · -- `S_COMPOSE`
    exact ht.silent hq rfl rfl fun _ hp => hp
  · -- `S_NEXT`
    exact ht.silent hq rfl rfl fun _ hp => hp
  · -- ProtocolViolation
    obtain ⟨hstart, hstage, hend⟩ := controlOk_valid hc
    rcases hv with ⟨hq, hv⟩ | ⟨hq, hv⟩ | ⟨hq, hv⟩
    · simp [hstart hq] at hv
    · simp [hstage hq] at hv
    · simp [hend hq] at hv
  · -- a call that waits
    exact ht.silent rfl rfl rfl fun _ hp => hp
  · -- `S_START`
    refine ht.emits hq rfl rfl fun p hp => ?_
    obtain rfl : p = .outside := hp
    exact ⟨_, rfl, rfl⟩
  · -- `S_REORDER`
    obtain ⟨-, hlt⟩ : s.inFrame ∧ s.row.toNat < s.cfg.height := controlOk_at hc hq
    refine ht.emits hq rfl rfl fun p hp => ?_
    obtain rfl : p = .betweenRows s.row.toNat s.frameKind := hp
    exact ⟨_, if_pos hlt, s.scratch, rfl, rfl⟩
  · -- `S_STAGE1` of a pixel frame
    refine ht.emits hq rfl rfl fun p hp => ?_
    obtain ⟨r, hscratch, rfl⟩ := hp
    exact ⟨_, if_pos hscratch, rfl⟩
  · -- `S_STAGE1` of a fill frame
    refine ht.emits hq rfl rfl fun p hp => ?_
    obtain ⟨r, hscratch, rfl⟩ := hp
    exact ⟨_, if_pos hscratch, Iff.mpr (atPos_clock_fill hm) rfl⟩
  · -- `S_SWITCH`
    obtain ⟨-, -, hm⟩ : s.inFrame ∧ s.row.toNat < s.cfg.height ∧ s.mode = .pixel := controlOk_at hc hq
    refine ht.emits hq rfl rfl fun p hp => ?_
    obtain rfl : p = .staged s.row.toNat s.frameKind s.scratch := hp
    exact ⟨_, if_pos (frameKind_ne (by simp [hm])), rfl⟩
  · -- `S_STAGE2`
    obtain ⟨-, -, hm⟩ : s.inFrame ∧ s.row.toNat < s.cfg.height ∧ s.mode = .pixel := controlOk_at hc hq
    refine ht.emits hq rfl rfl fun p hp => ?_
    obtain rfl : p = .switched s.row.toNat s.scratch := hp
    exact ⟨_, if_pos rfl, Iff.mpr (atPos_clock_pixel hm) rfl⟩
  · -- `S_CLOCK`
    obtain ⟨-, hlt⟩ : s.inFrame ∧ s.row.toNat < s.cfg.height := controlOk_at hc hq
    have hnext := betweenRows_clockedOut (s := s) ((Nat.le_of_lt hlt).trans hH)
    refine ht.emits hq rfl rfl fun p hp => ?_
    cases hm : s.mode with
    | fill =>
      obtain rfl := (atPos_clock_fill hm).1 hp
      exact ⟨_, if_pos ⟨frameKind_ne (by simp [hm]), h.delay⟩, (hnext.trans (by rw [hm])).symm⟩
    | pixel =>
      obtain rfl := (atPos_clock_pixel hm).1 hp
      exact ⟨_, if_pos h.delay, (hnext.trans (by rw [hm])).symm⟩
  · -- `S_TRAIL`
    obtain ⟨-, hrow⟩ : s.inFrame ∧ s.row.toNat = s.cfg.height := controlOk_at hc hq
    refine ht.emits hq rfl rfl fun p hp => ?_
    obtain rfl : p = .betweenRows s.row.toNat s.frameKind := hp
    exact ⟨_, if_pos ⟨hrow, h.delay⟩, rfl⟩
  · -- `S_END`
    refine ht.emits hq rfl rfl fun p hp => ?_
    obtain rfl : p = .trailed := hp
    exact ⟨_, rfl, rfl⟩

/-- A word accepted in `S_IDLE` leads to `S_IDLE` or `S_CYCLE_CHECK`. -/
theorem acceptWord_seq {w : U32} {s t : State} (hq : s.seq = .idle) (h : acceptWord w s = .next t) :
    t.seq = .idle ∨ t.seq = .cycleCheck := by
  rcases acceptWord_cases h with ⟨_, -, rfl⟩ | ⟨i, -, he⟩
  · exact .inl rfl
  · by_cases hne : t.seq = .idle
    · exact .inl hne
    · exact .inr (exec_leaves_idle hq he hne).1

/-- An accepted word emits nothing, and both micro-states it can lead to are outside a frame. -/
theorem acceptWord_keeps_traceOk {w : U32} {s t : State} (hq : s.seq = .idle) (ht : s.traceOk)
    (h : acceptWord w s = .next t) : t.traceOk := by
  refine ht.silent hq (acceptWord_trace h) (acceptWord_frame h).1 fun p hp => ?_
  obtain rfl : p = .outside := hp
  rcases acceptWord_seq hq h with hseq | hseq <;> simp [State.atPos, hseq]

/-- Settles O45, by what a step can do: a reset empties `TRACE`, outside the sequencer nothing is emitted. -/
theorem stepKeepsTheTraceGrammar : Obligations.StepKeepsTheTraceGrammar := by
  intro s t h ht hs
  obtain ⟨-, ⟨img, -, rfl⟩ | ⟨-, -, rfl⟩ | ⟨-, -, hq, ⟨w, -, -, ha⟩ | ⟨-, rfl⟩⟩ | ⟨-, -, hq, hseq⟩⟩ := step_cases hs
  · exact ⟨.outside, rfl, rfl⟩
  · exact ht
  · exact acceptWord_keeps_traceOk (s := s.tick.popCommand) hq ht ha
  · exact ht
  · exact sequencerStep_keeps_traceOk h.tick hq ht hseq

/-! ### What a transport call carries (R116 to R118, R120) -/

/-- The argument of a pending call is the row in `SCRATCH` or the delay in `CFG_ROW_DELAY` (43_frame_driver R88). -/
theorem pendingCall_args {s : State} {e : Event} (h : s.pendingCall = some e) :
    (∀ r, e = .stage r ∨ e = .reorder r → r = s.scratch) ∧ ∀ d, e = .writeRow d → d = s.cfgRowDelay := by
  unfold State.pendingCall at h
  split at h <;> cases h <;> simp

/-- Settles O57: the invariant has the length of `SCRATCH` and the delay. -/
theorem transportCallsCarryWholeRows : Obligations.TransportCallsCarryWholeRows := by
  intro s e h he
  obtain ⟨hrow, hdelay⟩ := pendingCall_args he
  refine ⟨fun r hr => ?_, fun r hr => ?_, fun d hd => (hdelay d hd).trans h.delay, ?_⟩
  · have hlen : r.length = s.cfg.rowWords := by rw [hrow r (.inl hr), h.scratchLength]
    rw [hr, Event.slotBytes, rowToBytes_length, hlen, Config.rowBytes_eq h.admitted]
  · rw [hrow r (.inr hr), h.scratchLength]
  · cases e <;> exact ⟨nofun, nofun, nofun, nofun⟩

/-! ### The faults of a command (R103 to R106, R108) -/

theorem fbAttached_eq_false {c : Config} : c.fbAttached = false ↔ c.fbLen ≠ c.fbBytes := by
  simp [Config.fbAttached]

theorem onPanel_setpx_eq_false {c : Config} {v : Bool} {y x : BitVec 12} :
    Instr.onPanel c (.setpx v y x) = false ↔ c.width ≤ x.toNat ∨ c.height ≤ y.toNat := by
  simp [Instr.onPanel, imp_iff_not_or]

/-- Settles O8: the step accepts the word, and the accepted word is illegal. -/
theorem illegalWordRaisesIllegalCommand : Obligations.IllegalWordRaisesIllegalCommand :=
  fun _ _ _ _ hacc hw => (step_of_accepts hacc).trans (acceptWord_of_illegal hw _)

/-- Settles O23, command by command. -/
theorem bufferSizeMismatchOnMalformedAttachment : Obligations.BufferSizeMismatchOnMalformedAttachment := by
  intro s hwf hlen
  have hb : s.cfg.fbAttached = false := fbAttached_eq_false.2 hlen
  refine ⟨fun i hi => ?_, exec_flash hwf⟩
  rcases hi with hi | hi | hi | ⟨a, n, rfl⟩
  · exact exec_mismatch hwf hb (.inl hi)
  · exact exec_mismatch hwf hb (.inr (.inl hi))
  · exact exec_mismatch hwf hb (.inr (.inr hi))
  · exact exec_render_mismatch hwf hb a n

/-- Settles O24: on a well-formed attachment the range check is what decides. -/
theorem outOfRangeSetpxRaises : Obligations.OutOfRangeSetpxRaises :=
  fun _ v _ _ hwf hb hoff => exec_setpx_outOfRange hwf hb v hoff

/-- Settles O25: decoding comes before the command, and the command checks the attachment before the coordinates. -/
theorem faultPriority : Obligations.FaultPriority := by
  intro s w rest hacc
  have hwf : (s.accepted rest).cfg.wf = true := hacc.1
  refine ⟨fun ⟨why, hw⟩ => ?_, fun v y x hw hb => ?_, fun v y x hw hb hoff => ?_⟩
  · exact ⟨_, illegalWordRaisesIllegalCommand s w rest why hacc hw, rfl⟩
  · rw [stepRunsTheDecodedCommand s w rest _ hacc hw]
    exact ⟨_, exec_mismatch hwf hb (.inr (.inr ⟨v, y, x, rfl⟩)), rfl⟩
  · rw [stepRunsTheDecodedCommand s w rest _ hacc hw]
    exact ⟨_, exec_setpx_outOfRange hwf hb v (onPanel_setpx_eq_false.1 hoff), rfl⟩

/-- A command either takes a fault with its own word and does nothing else, or leaves `FAULT` as it was (R106). -/
theorem exec_fault_cases {i : Instr} {s t : State} (h : exec i s = .next t) :
    (∃ f, f ≠ .none ∧ t = s.raise f (encode i)) ∨ t.fault = s.fault := by
  obtain ⟨-, ⟨-, rfl⟩ | ⟨-, _, _, _, -, -, rfl⟩ | ⟨-, -, rfl⟩ | ⟨-, _, -, rfl⟩ | ⟨-, _, _, _, -, -, -, rfl⟩ |
    ⟨_, _, -, rfl⟩ | ⟨-, _, _, -, rfl⟩⟩ := exec_cases h
  · exact .inl ⟨_, by decide, rfl⟩
  · exact .inl ⟨_, by decide, rfl⟩
  all_goals exact .inr rfl

theorem exec_faults {i : Instr} {s t : State} (hf : s.fault = false) (h : exec i s = .next t) (ht : t.fault = true) :
    t.fcode ≠ .none ∧ t = s.raise t.fcode (encode i) := by
  rcases exec_fault_cases h with ⟨f, hne, rfl⟩ | hkeep
  · exact ⟨hne, rfl⟩
  · rw [hkeep, hf] at ht; cases ht

theorem acceptWord_faults {w : U32} {s t : State} (hf : s.fault = false) (h : acceptWord w s = .next t)
    (ht : t.fault = true) : t.fcode ≠ .none ∧ t = s.raise t.fcode w := by
  rcases acceptWord_cases h with ⟨_, -, rfl⟩ | ⟨i, hd, he⟩
  · exact ⟨nofun, rfl⟩
  · rw [← encode_of_decode hd]
    exact exec_faults hf he ht

/-- Settles O26: a step that accepts a word is that word's command or IllegalCommand. -/
theorem faultsArePrecise : Obligations.FaultsArePrecise := by
  refine ⟨fun _ _ _ => rfl, fun s t i hf h ht => exec_faults hf h ht, fun s t w rest hacc h ht => ?_⟩
  have ⟨_, _, _, _, _, hf, _⟩ := hacc
  exact acceptWord_faults (s := s.accepted rest) hf ((step_of_accepts hacc).symm.trans h) ht

/-! ### ProtocolViolation (R107) -/

theorem startFrame_violation {s : State} (h : s.startValid = false) : startFrame s = .raised s.protocolViolation := by
  simp [startFrame, h]

theorem emitRow_violation {s : State} (twice : Bool) (h : s.emitValid = false) :
    emitRow twice s = .raised s.protocolViolation := by
  simp [emitRow, h]

theorem endFrame_violation {s : State} (h : s.endValid = false) : endFrame s = .raised s.protocolViolation := by
  simp [endFrame, h]

/-- The sequencer checks the same conditions before its call (43_frame_driver R82, R83, R85; log 12). -/
theorem sequencerStep_violation {s : State} (h : s.seq = .start ∧ s.startValid = false ∨
    s.seq = .stage1 ∧ s.emitValid = false ∨ s.seq = .endFrame ∧ s.endValid = false) :
    sequencerStep s = .next s.protocolViolation := by
  rcases h with ⟨hq, hv⟩ | ⟨hq, hv⟩ | ⟨hq, hv⟩
  · simp [sequencerStep, seqStart, hq, hv]
  · simp [sequencerStep, seqStage1, hq, hv]
  · simp [sequencerStep, seqEnd, hq, hv]

/-- Settles O27: a failed validity condition, by name, ends the operation and the sequencer's step alike. -/
theorem invalidFrameOperationRaises : Obligations.InvalidFrameOperationRaises := by
  intro s
  refine ⟨fun hp => ?_, fun twice hopen hrow => ?_, fun hend => ?_, fun hrun hv => ?_⟩
  · exact startFrame_violation ((startValid_eq_false s).2 hp)
  · exact emitRow_violation twice ((emitValid_eq_false s).2 ⟨hopen, hrow⟩)
  · exact endFrame_violation ((endValid_eq_false s).2 hend)
  · rw [step_of_running_row hrun]
    refine sequencerStep_violation (s := s.tick) ?_
    rw [startValid_eq_false, emitValid_eq_false, endValid_eq_false]
    exact hv

/-! ### FAULT is sticky (R109) -/

theorem cmdReady_of_fault {s : State} (hf : s.fault = true) : s.cmdReady = false := by
  simp [State.cmdReady, hf]

/-- A block in `S_IDLE` that is not ready only lets the host's inputs go on, releasing a reset if one is on. -/
theorem step_of_not_ready {s : State} (hwf : s.cfg.wf = true) (hr : s.rstNow = none) (hq : s.seq = .idle)
    (hready : s.cmdReady = false) : step s = .next s.tick.released := by
  cases hi : s.inReset with
  | true => exact step_of_inReset hwf hr hi
  | false =>
    have hkeep : s.tick.released = s.tick := by rw [State.released, ← hi]; rfl
    rw [step_of_idle hwf hr hi hq, hkeep]
    cases hw : s.cmdNow <;> simp [idleStep, hw, hready]

/-- No micro-step clears `FAULT`. -/
theorem sequencerStep_keeps_fault {s t : State} (hf : s.fault = true) (h : sequencerStep s = .next t) :
    t.fault = true := by
  rcases sequencerStep_cases h with ⟨-, rfl⟩ | ⟨-, -, rfl⟩ | ⟨-, -, rfl⟩ | ⟨-, -, rfl⟩ | ⟨-, -, rfl⟩ |
    ⟨_, -, -, rfl⟩ | ⟨-, rfl⟩ | ⟨-, rfl⟩ | ⟨-, -, rfl⟩ | ⟨-, ⟨-, -, rfl⟩ | ⟨-, rfl⟩ | ⟨-, -, -, rfl⟩ |
      ⟨-, -, -, rfl⟩ | ⟨-, rfl⟩ | ⟨-, rfl⟩ | ⟨-, rfl⟩ | ⟨-, rfl⟩ | ⟨-, -, rfl⟩⟩
  case inr.inr.inr.inr.inr.inr.inr.inl => rfl
  all_goals exact hf

/-- No step without reset clears `FAULT`: what could, an accepted word, needs a block that is ready. -/
theorem step_keeps_fault {s t : State} (hf : s.fault = true) (hr : s.rstNow = none) (h : step s = .next t) :
    t.fault = true := by
  obtain ⟨-, ⟨img, hi, -⟩ | ⟨-, -, rfl⟩ | ⟨-, -, -, ⟨w, -, hready, -⟩ | ⟨-, rfl⟩⟩ | ⟨-, -, -, hs⟩⟩ := step_cases h
  · rw [hr] at hi; cases hi
  · exact hf
  · rw [cmdReady_of_fault hf] at hready; cases hready
  · exact hf
  · exact sequencerStep_keeps_fault (s := s.tick) hf hs

/-- Settles O10: under the invariant the block is stopped in `S_IDLE`, where it is not ready. -/
theorem faultIsStickyUntilReset : Obligations.FaultIsStickyUntilReset := by
  refine ⟨fun s h hf hr => ?_, fun s t hf hr h => step_keeps_fault hf hr h, fun s hf => ?_, fun s img hwf hi => ?_⟩
  · have hready := cmdReady_of_fault hf
    obtain ⟨hq, -⟩ := h.faultRegisters.2 hf
    exact ⟨_, step_of_not_ready h.admitted hr hq hready, hf, rfl, rfl, hready, rfl, rfl, rfl, rfl, rfl, rfl⟩
  · exact ⟨cmdReady_of_fault hf, by simp [State.endedWell, hf]⟩
  · exact ⟨_, step_of_reset hwf hi, rfl, rfl⟩

/-! ### A hung transport (R110) -/

/-- The block makes a call that the transport never completes, and no reset comes. -/
structure State.Hung (s : State) : Prop where
  inv : s.Inv
  noReset : s.noReset
  calling : s.tReq = true
  noAnswer : s.ackIn = []
  never : s.ackRest = false

/-- Only a running sequencer makes a call. -/
theorem seq_ne_idle_of_tReq {s : State} (h : s.tReq = true) : s.seq ≠ .idle := fun hq => by
  simp [State.tReq, State.pendingCall, hq] at h

namespace State.Hung

variable {s : State}

theorem busy (h : s.Hung) : s.busy = true := controlOk_busy h.inv.control (seq_ne_idle_of_tReq h.calling)

theorem fault (h : s.Hung) : s.fault = false := h.inv.fault_eq_false (seq_ne_idle_of_tReq h.calling)

theorem not_over (h : s.Hung) : s.over = false := by simp [State.over, h.busy]

/-- A hung block is hung whatever the host presents. -/
theorem withCmds (h : s.Hung) (cmds : List (Option U32)) : ({ s with cmdIn := cmds } : State).Hung :=
  ⟨h.inv.withInputs _ _ _ _, h.noReset, h.calling, h.noAnswer, h.never⟩

/-- A step of a hung block is a wait: nothing moves but the host. -/
theorem step_eq (h : s.Hung) : step s = .next { s with cmdIn := heldCommands s.cmdIn } := by
  obtain ⟨hrst, hi⟩ := h.noReset
  obtain ⟨hstart, hstage, hend⟩ := controlOk_valid h.inv.tick.control
  have hack : s.tick.ackNow = false := by simp [State.ackNow, h.noAnswer, h.never]
  rw [step_of_running h.inv.admitted (rstNow_nil hrst) hi (seq_ne_idle_of_tReq h.calling),
    sequencerStep_wait (s := s.tick) h.calling hack hstart hstage hend]
  simp [State.ackTaken, State.tick, hrst, h.noAnswer]

/-- A hung block stays as it is for any number of steps. -/
theorem run_eq (k : Nat) : ∀ {s : State}, s.Hung →
    ∃ cmds, run k s = .next { s with cmdIn := cmds } := by
  induction k with
  | zero => exact fun {s} _ => ⟨s.cmdIn, rfl⟩
  | succ k ih =>
    intro s h
    obtain ⟨cmds, e⟩ := ih (h.withCmds (heldCommands s.cmdIn))
    exact ⟨cmds, (run_step h.step_eq).trans e⟩

end State.Hung

/-- Settles O38: after any number of steps the block is the same but for the words at its port. -/
theorem hungTransportLeavesTheBlockStuck : Obligations.HungTransportLeavesTheBlockStuck := by
  intro s hinv hn hreq hack hrest k
  have h : s.Hung := ⟨hinv, hn, hreq, hack, hrest⟩
  obtain ⟨cmds, e⟩ := h.run_eq k
  exact ⟨_, e, h.busy, rfl, rfl, rfl, rfl, h.fault, (h.withCmds cmds).not_over⟩

end Sys2Proof.Machine

/-! PROOFS. Reset and hazards (70_reset): what a reset leaves, the pixel convention shared by the table, the buffer and
the fill rows, that a running command ends, and the end of a run and its result. -/

namespace Sys2Proof.Machine

/-! ### What a reset leaves (R125, R126) -/

/-- `FB` after a reset holds `FB_INIT` byte for byte. -/
theorem read_resetBy (s : State) {img : ResetImage} (hlen : img.fb.length = s.cfg.fbBytes) {a : Nat}
    (ha : a < s.cfg.fbBytes) : img.fb[a]? = some ((s.resetBy img).fb.read a) := by
  have hread : (s.resetBy img).fb.read a = img.fb.getD a Memory.unlisted :=
    (Memory.read_load img.fb s.cfg.fbBytes a).trans (if_pos ha)
  have hlisted : a < img.fb.length := ha.trans_eq hlen.symm
  rw [hread, List.getD_eq_getElem?_getD, List.getElem?_eq_getElem hlisted, Option.getD_some]

/-- `STATUS` between commands, with no fault recorded (10_state R23). -/
theorem statusWord_eq_zero {s : State} (hp : s.phase = .idle) (hcode : s.fcode = .none) (hf : s.fault = false)
    (hb : s.busy = false) : s.statusWord = 0x00000000#32 := by
  rw [State.statusWord, hp, hcode, hf, hb]
  rfl

/-- Settles O11: the step is the reset itself, and `FB` is loaded from `FB_INIT`. -/
theorem resetLeavesTheResetValues : Obligations.ResetLeavesTheResetValues := by
  intro s img hwf hr hlen
  exact ⟨_, step_of_reset hwf hr, fun a ha => read_resetBy s.tick hlen ha, fun _ => rfl, rfl, rfl, rfl, rfl, rfl, rfl,
    rfl, rfl, rfl, rfl, rfl, rfl, statusWord_eq_zero rfl rfl rfl rfl, rfl, rfl⟩

/-! ### One pixel convention (R136) -/

/-- The table entry of eight equal pixels is the word of the fill row of their colour, of the other colour through the
inverse index (41_expand_table R71, 42_row_compositor R76). -/
theorem lut_solidByte : ∀ v inv : Bool,
    lut (lutIndex inv (solidByte v)) = if v != inv then 0x5555#16 else 0xAAAA#16 := by decide

/-- A pixel row over bytes of one colour is a fill row (43_frame_driver R89). -/
theorem pixRow_of_solid {c : Config} {fb : Memory} {y : Nat} {v : Bool} (inv : Bool)
    (h : ∀ j, j < c.rowWords → fb.read (rowBase c y + j) = solidByte v) : pixRow c fb y inv = fillRow c (v != inv) := by
  refine List.eq_replicate_iff.2 ⟨pixRow_length c fb y inv, fun w hw => ?_⟩
  obtain ⟨j, hj, rfl⟩ := List.mem_map.1 hw
  rw [h j (List.mem_range.1 hj), lut_solidByte]

/-- Settles O35: FILL leaves every byte of the row's slice the byte of its colour. -/
theorem tableAndConventionInLockstep : Obligations.TableAndConventionInLockstep := by
  intro s v inv hwf hfb hb
  refine ⟨_, exec_fill hwf hb v, fun y hy => ?_⟩
  rw [composePixelRow_ok (s := s.fbFill (solidByte v)) hwf hy inv, composeFillRow_eq]
  refine congrArg _ (pixRow_of_solid inv fun j hj => ?_)
  have hslice := rowBase_le hwf hy
  have hj : j < s.cfg.fbRowBytes := hj.trans_eq (Config.rowWords_eq hwf)
  have hbyte : rowBase s.cfg y + j < s.cfg.fbBytes := by omega
  exact (read_fbFill hfb _ _).trans (if_pos hbyte)

/-! ### What any step does to the inputs (10_state R28) -/

/-- An accepted word looks at no input but the word itself. -/
theorem acceptWord_inputs {w : U32} {s t : State} (h : acceptWord w s = .next t) :
    t.cmdIn = s.cmdIn ∧ t.rstIn = s.rstIn ∧ t.inReset = s.inReset ∧ t.ackRest = s.ackRest := by
  rcases acceptWord_cases h with ⟨_, -, rfl⟩ | ⟨i, -, he⟩
  · exact ⟨rfl, rfl, rfl, rfl⟩
  · obtain ⟨-, ⟨-, rfl⟩ | ⟨-, _, _, _, -, -, rfl⟩ | ⟨-, -, rfl⟩ | ⟨-, _, -, rfl⟩ | ⟨-, _, _, _, -, -, -, rfl⟩ |
      ⟨_, _, -, rfl⟩ | ⟨-, _, _, -, rfl⟩⟩ := exec_cases he <;> exact ⟨rfl, rfl, rfl, rfl⟩

theorem sequencerStep_ackRest {s t : State} (h : sequencerStep s = .next t) : t.ackRest = s.ackRest := by
  rcases sequencerStep_cases h with ⟨-, rfl⟩ | ⟨-, -, rfl⟩ | ⟨-, -, rfl⟩ | ⟨-, -, rfl⟩ | ⟨-, -, rfl⟩ |
    ⟨_, -, -, rfl⟩ | ⟨-, rfl⟩ | ⟨-, rfl⟩ | ⟨-, -, rfl⟩ | ⟨-, ⟨-, -, rfl⟩ | ⟨-, rfl⟩ | ⟨-, -, -, rfl⟩ |
      ⟨-, -, -, rfl⟩ | ⟨-, rfl⟩ | ⟨-, rfl⟩ | ⟨-, rfl⟩ | ⟨-, rfl⟩ | ⟨-, -, rfl⟩⟩ <;> rfl

/-- How the transport answers in the long run is the environment's alone (60_exceptions R110; log 8). -/
theorem step_ackRest {s t : State} (h : step s = .next t) : t.ackRest = s.ackRest := by
  obtain ⟨-, ⟨img, -, rfl⟩ | ⟨-, -, rfl⟩ | ⟨-, -, -, ⟨w, -, -, ha⟩ | ⟨-, rfl⟩⟩ | ⟨-, -, -, hs⟩⟩ := step_cases h
  · rfl
  · rfl
  · obtain ⟨-, -, -, hrest⟩ := acceptWord_inputs ha
    exact hrest
  · rfl
  · exact sequencerStep_ackRest (s := s.tick) hs

/-- Where no reset is to come none comes (70_reset R124; log 7). -/
theorem step_noReset {s t : State} (hn : s.noReset) (h : step s = .next t) : t.noReset := by
  obtain ⟨hrst, hi⟩ := hn
  have htick : s.tick.noReset := ⟨congrArg List.tail hrst, hi⟩
  obtain ⟨-, ⟨img, hr, -⟩ | ⟨-, -, rfl⟩ | ⟨-, -, -, ⟨w, -, -, ha⟩ | ⟨-, rfl⟩⟩ | ⟨-, -, -, hs⟩⟩ := step_cases h
  · rw [rstNow_nil hrst] at hr; cases hr
  · exact ⟨htick.1, rfl⟩
  · obtain ⟨-, hrst', hi', -⟩ := acceptWord_inputs ha
    exact ⟨hrst'.trans htick.1, hi'.trans hi⟩
  · exact htick
  · obtain ⟨-, -, -, -, -, -, hrst', hi'⟩ := sequencerStep_frame hs
    exact ⟨hrst'.trans htick.1, hi'.trans hi⟩

theorem heldCommands_suffix (cmds : List (Option U32)) : heldCommands cmds <:+ cmds := by
  unfold heldCommands
  split
  · exact List.suffix_cons _ _
  · exact List.suffix_refl _

/-- A step that accepts nothing leaves every word at the port (30_encoding R59). -/
theorem mem_heldCommands {w : U32} {cmds : List (Option U32)} (h : some w ∈ cmds) : some w ∈ heldCommands cmds := by
  unfold heldCommands
  split
  · exact (List.mem_cons.1 h).resolve_left nofun
  · exact h

/-- No step puts a word at the port. -/
theorem step_cmdIn_suffix {s t : State} (h : step s = .next t) : t.cmdIn <:+ s.cmdIn := by
  have hheld : heldCommands s.cmdIn <:+ s.cmdIn := heldCommands_suffix s.cmdIn
  obtain ⟨-, ⟨img, -, rfl⟩ | ⟨-, -, rfl⟩ | ⟨-, -, -, ⟨w, -, -, ha⟩ | ⟨-, rfl⟩⟩ | ⟨-, -, -, hs⟩⟩ := step_cases h
  · exact hheld
  · exact hheld
  · obtain ⟨hcmd, -⟩ := acceptWord_inputs ha
    rw [hcmd]
    exact (List.tail_suffix _).trans hheld
  · exact hheld
  · obtain ⟨-, -, -, -, -, hcmd, -⟩ := sequencerStep_frame hs
    rw [hcmd]
    exact hheld

/-- What a ready block does in `S_IDLE`: it accepts the word at its port, or there is none and a step passes
(30_encoding R59). -/
theorem step_ready_cases {s t : State} (hn : s.noReset) (hq : s.seq = .idle) (hready : s.cmdReady = true)
    (h : step s = .next t) :
    (∃ w rest, s.cmdIn = some w :: rest ∧ acceptWord w s.tick.popCommand = .next t) ∨
      ((∀ w rest, s.cmdIn ≠ some w :: rest) ∧ t = s.tick) := by
  obtain ⟨-, ⟨img, hr, -⟩ | ⟨-, hi, -⟩ | ⟨-, -, -, ⟨w, hw, -, ha⟩ | ⟨hw, rfl⟩⟩ | ⟨-, -, hrun, -⟩⟩ := step_cases h
  · rw [rstNow_nil hn.1] at hr; cases hr
  · rw [hn.2] at hi; cases hi
  · obtain ⟨rest, hcmd⟩ := cmdNow_some hw
    exact .inl ⟨w, rest, hcmd, ha⟩
  · have hnone : s.cmdNow = none := hw.resolve_right (by simp [hready])
    exact .inr ⟨fun w rest hcmd => by simp [State.cmdNow, hcmd] at hnone, rfl⟩
  · exact absurd hq hrun

theorem heldCommands_of_no_word {cmds : List (Option U32)} (h : ∀ w rest, cmds ≠ some w :: rest) :
    heldCommands cmds = cmds.tail := by
  match cmds with
  | [] => rfl
  | none :: _ => rfl
  | some w :: rest => exact absurd rfl (h w rest)

/-- A ready block takes what stands at the port, a word or a step with none. -/
theorem step_cmdIn_of_ready {s t : State} (hn : s.noReset) (hq : s.seq = .idle) (hready : s.cmdReady = true)
    (h : step s = .next t) : t.cmdIn = s.cmdIn.tail := by
  rcases step_ready_cases hn hq hready h with ⟨w, rest, hcmd, ha⟩ | ⟨hnone, rfl⟩
  · obtain ⟨hkeep, -⟩ := acceptWord_inputs ha
    rw [hkeep, State.popCommand_cmdIn, State.tick_cmdIn, hcmd, heldCommands_some]
  · exact heldCommands_of_no_word hnone

/-! ### Properties that every step keeps, along a run -/

/-- What holds of a state and is kept by every step holds after any number of steps, none of which stops. -/
theorem run_keeps {P : State → Prop} (hstep : ∀ s, P s → ∃ t, step s = .next t ∧ P t) (k : Nat) :
    ∀ {s : State}, P s → ∃ t, run k s = .next t ∧ P t := by
  induction k with
  | zero => exact fun {s} h => ⟨s, run_zero s, h⟩
  | succ k ih =>
    intro s h
    obtain ⟨t, ht, hP⟩ := hstep s h
    obtain ⟨u, hu, hu'⟩ := ih hP
    exact ⟨u, (run_step ht).trans hu, hu'⟩

/-- If every step keeps `P` and lowers `m` as long as `Q` does not hold, some number of steps leads to `Q`. -/
theorem run_reaches {α : Type} [LT α] [WellFoundedLT α] {P Q : State → Prop} (m : State → α)
    (hstep : ∀ s, P s → ¬Q s → ∃ t, step s = .next t ∧ P t ∧ m t < m s) {s : State} (h : P s) :
    ∃ k t, run k s = .next t ∧ P t ∧ Q t := by
  induction s using WellFounded.induction (InvImage.wf m wellFounded_lt) with
  | _ s ih =>
    by_cases hQ : Q s
    · exact ⟨0, s, run_zero s, h, hQ⟩
    · obtain ⟨t, ht, hP, hlt⟩ := hstep s h hQ
      obtain ⟨k, u, hu, hu'⟩ := ih t hlt hP
      exact ⟨k + 1, u, (run_step ht).trans hu, hu'⟩

/-! ### A running command ends (R137) -/

/-- At most how many micro-steps `q` is away from the end of its frame's round, with `n` of the `H` rows to drive: the
order in which a round passes the rows of the table (43_frame_driver R88). -/
def Seq.stepsLeft (H n : Nat) : Seq → Nat
  | .idle => 0
  | .next => 1
  | .endFrame => 2
  | .trail => 3
  | .clock => 7 * n
  | .stage2 => 7 * n + 1
  | .switch => 7 * n + 2
  | .stage1 => 7 * n + 3
  | .reorder => 7 * n + 4
  | .compose => 7 * n + 5
  | .rowCheck => 7 * n + 6
  | .start => 7 * H + 7
  | .cycleCheck => 7 * H + 8

/-- The micro-steps left of the present round. -/
def State.roundLeft (s : State) : Nat := s.seq.stepsLeft s.cfg.height (s.cfg.height - s.row.toNat)

/-- At most how many steps the running command still takes: the rounds that `CYC` counts, what is left of this one, and
the answers of the transport that are not its last (60_exceptions R110). -/
def State.stepsLeft (s : State) : Nat := s.cyc.toNat * (7 * s.cfg.height + 9) + s.roundLeft + s.ackIn.length

/-- A step within a round takes one from it. -/
theorem stepsLeft_lt_of_roundLeft {s t : State} (hcyc : t.cyc = s.cyc) (hcfg : t.cfg = s.cfg)
    (hack : t.ackIn.length ≤ s.ackIn.length) (h : t.roundLeft < s.roundLeft) : t.stepsLeft < s.stepsLeft := by
  rw [State.stepsLeft, State.stepsLeft, hcyc, hcfg]
  omega

/-- A wait takes one from the answers: the transport's last answer is to complete the call. -/
theorem stepsLeft_ackTaken {s : State} (hrest : s.ackRest = true) (hwait : s.ackNow = false) :
    s.ackTaken.stepsLeft < s.stepsLeft := by
  change _ + s.roundLeft + s.ackIn.tail.length < _ + s.roundLeft + s.ackIn.length
  cases hack : s.ackIn with
  | nil => simp [State.ackNow, hack, hrest] at hwait
  | cons b bs => simp

/-- A frame done takes one from `CYC`, which pays for the next round. -/
theorem stepsLeft_frameDone {s : State} (hq : s.seq = .next) (hc : s.cyc ≠ 0#16) :
    (({ s with cyc := s.cyc - 1#16 } : State).frameDone.goto .cycleCheck).stepsLeft < s.stepsLeft := by
  have hcyc : s.cyc.toNat = (s.cyc - 1#16).toNat + 1 := by bv_omega
  simp only [State.stepsLeft, State.roundLeft, hq, hcyc, Nat.succ_mul, Seq.stepsLeft, State.goto_seq, State.goto_cyc,
    State.goto_cfg, State.goto_ackIn, State.frameDone_cyc, State.frameDone_cfg, State.frameDone_ackIn]
  omega

/-- Between commands the block is neither busy nor in a frame (10_state R19). -/
theorem controlOk_idle {s : State} (h : s.controlOk) (hq : s.seq = .idle) : s.busy = false ∧ s.phase = .idle := by
  obtain ⟨hbusy, hphase, -⟩ := controlOk_at h hq
  exact ⟨hbusy, hphase⟩

/-- Under the invariant the sequencer's validity checks do not fail (43_frame_driver R92). -/
theorem controlOk_no_violation {s : State} (h : s.controlOk) : ¬((s.seq = .start ∧ s.startValid = false) ∨
    (s.seq = .stage1 ∧ s.emitValid = false) ∨ (s.seq = .endFrame ∧ s.endValid = false)) := by
  obtain ⟨hstart, hstage, hend⟩ := controlOk_valid h
  rintro (⟨hq, hv⟩ | ⟨hq, hv⟩ | ⟨hq, hv⟩)
  · simp [hstart hq] at hv
  · simp [hstage hq] at hv
  · simp [hend hq] at hv

/-- Under the invariant a micro-step takes no fault. -/
theorem sequencerStep_fault {s t : State} (hc : s.controlOk) (h : sequencerStep s = .next t) : t.fault = s.fault := by
  rcases sequencerStep_cases h with ⟨-, rfl⟩ | ⟨-, -, rfl⟩ | ⟨-, -, rfl⟩ | ⟨-, -, rfl⟩ | ⟨-, -, rfl⟩ |
    ⟨_, -, -, rfl⟩ | ⟨-, rfl⟩ | ⟨hv, -⟩ | ⟨-, -, rfl⟩ | ⟨-, ⟨-, -, rfl⟩ | ⟨-, rfl⟩ | ⟨-, -, -, rfl⟩ |
      ⟨-, -, -, rfl⟩ | ⟨-, rfl⟩ | ⟨-, rfl⟩ | ⟨-, rfl⟩ | ⟨-, rfl⟩ | ⟨-, -, rfl⟩⟩
  case inr.inr.inr.inr.inr.inr.inr.inl => exact absurd hv (controlOk_no_violation hc)
  all_goals rfl

/-- Row by row of the table of 43_frame_driver R88: a step of a running sequencer is a step on in its round, a wait, or
the end of a frame. -/
theorem sequencerStep_stepsLeft {s t : State} (h : s.Inv) (hrest : s.ackRest = true) (hidle : s.seq ≠ .idle)
    (hs : sequencerStep s = .next t) : t.stepsLeft < s.stepsLeft := by
  have hc := h.control
  rcases sequencerStep_cases hs with ⟨hq, -⟩ | ⟨hq, -, rfl⟩ | ⟨hq, -, rfl⟩ | ⟨hq, -, rfl⟩ | ⟨hq, -, rfl⟩ |
    ⟨r, hq, -, rfl⟩ | ⟨hq, rfl⟩ | ⟨hv, -⟩ | ⟨-, hwait, rfl⟩ | ⟨-, hemit⟩
  case inl => exact absurd hq hidle
  case inr.inr.inr.inr.inr.inr.inl =>
    -- `S_NEXT`, the end of a frame
    obtain ⟨-, hcyc, -⟩ : s.busy = true ∧ s.cyc ≠ 0#16 ∧ s.phase = .frameClosed := controlOk_at hc hq
    exact stepsLeft_frameDone hq hcyc
  case inr.inr.inr.inr.inr.inr.inr.inl => exact absurd hv (controlOk_no_violation hc)
  case inr.inr.inr.inr.inr.inr.inr.inr.inl => exact stepsLeft_ackTaken hrest hwait
  case inr.inr.inr.inr.inr.inr.inr.inr.inr =>
    -- a call that returned
    have htail : s.ackIn.tail.length ≤ s.ackIn.length := (List.tail_suffix _).length_le
    rcases hemit with ⟨hq, -, rfl⟩ | ⟨hq, rfl⟩ | ⟨hq, -, -, rfl⟩ | ⟨hq, -, -, rfl⟩ | ⟨hq, rfl⟩ | ⟨hq, rfl⟩ |
      ⟨hq, rfl⟩ | ⟨hq, rfl⟩ | ⟨hq, -, rfl⟩ <;>
    refine stepsLeft_lt_of_roundLeft rfl rfl htail ?_
    case inr.inr.inr.inr.inr.inr.inl =>
      -- `S_CLOCK`, the one row of the table that counts `ROW` up
      obtain ⟨-, hlt⟩ : s.inFrame ∧ s.row.toNat < s.cfg.height := controlOk_at hc hq
      have hrow : (s.row + 1#13).toNat = s.row.toNat + 1 :=
        toNat_add_one ((Nat.le_of_lt hlt).trans (Config.height_le h.admitted))
      have hnow : s.roundLeft = 7 * (s.cfg.height - s.row.toNat) := by rw [State.roundLeft, hq]; rfl
      change 7 * (s.cfg.height - (s.row + 1#13).toNat) + 6 < s.roundLeft
      omega
    all_goals simp [State.roundLeft, hq, Seq.stepsLeft]
  all_goals exact stepsLeft_lt_of_roundLeft rfl rfl le_rfl (by simp [State.roundLeft, hq, Seq.stepsLeft])

/-- What keeps a block going: the invariant, no reset, no fault, and a transport that completes every call after the
waits listed in `ackIn` (R137). -/
structure State.Live (s : State) : Prop where
  inv : s.Inv
  noReset : s.noReset
  noFault : s.fault = false
  answers : s.ackRest = true

namespace State.Live

variable {s : State}

/-- Only a fault ends it. -/
theorem of_step (h : s.Live) {t : State} (hs : step s = .next t) (hf : t.fault = false) : t.Live :=
  ⟨stepKeepsTheInvariant s t h.inv hs, step_noReset h.noReset hs, hf, (step_ackRest hs).trans h.answers⟩

/-- A running command takes a step towards its end, and no fault. -/
theorem step_running (h : s.Live) (hq : s.seq ≠ .idle) :
    ∃ t, step s = .next t ∧ t.Live ∧ t.fb = s.fb ∧ t.stepsLeft < s.stepsLeft := by
  obtain ⟨t, ht⟩ := stepNeverStopsUnderTheInvariant s h.inv
  have hs : sequencerStep s.tick = .next t :=
    (step_of_running h.inv.admitted (rstNow_nil h.noReset.1) h.noReset.2 hq).symm.trans ht
  obtain ⟨hfb, -⟩ := sequencerStep_frame hs
  have hf : t.fault = false := (sequencerStep_fault h.inv.tick.control hs).trans h.noFault
  exact ⟨t, ht, h.of_step ht hf, hfb, sequencerStep_stepsLeft (s := s.tick) h.inv.tick h.answers hq hs⟩

end State.Live

/-- Settles O54: `stepsLeft` goes down until `S_IDLE` is reached, where the invariant has `BUSY` and `PHASE`. -/
theorem runningCommandEnds : Obligations.RunningCommandEnds := by
  intro s hinv hn hb hrest
  have hrun : s.seq ≠ .idle := fun hq => by
    obtain ⟨hidle, -⟩ := controlOk_idle hinv.control hq
    exact Bool.false_ne_true (hidle.symm.trans hb)
  have hstep (u : State) : u.Live ∧ u.fb = s.fb → ¬u.seq = .idle →
      ∃ t, step u = .next t ∧ (t.Live ∧ t.fb = s.fb) ∧ t.stepsLeft < u.stepsLeft := by
    rintro ⟨hu, hfb⟩ hq
    obtain ⟨t, ht, hlive, hkeep, hlt⟩ := hu.step_running hq
    exact ⟨t, ht, ⟨hlive, hkeep.trans hfb⟩, hlt⟩
  have hlive : s.Live := ⟨hinv, hn, hinv.fault_eq_false hrun, hrest⟩
  obtain ⟨k, t, ht, ⟨hlive, hfb⟩, hq⟩ := run_reaches (Q := fun t => t.seq = .idle) State.stepsLeft hstep ⟨hlive, rfl⟩
  obtain ⟨hbusy, hphase⟩ := controlOk_idle hlive.inv.control hq
  exact ⟨k, t, ht, hbusy, hq, hphase, hlive.noFault, hfb⟩

/-! ### Along a run (R138) -/

/-- A run starts in a state of the invariant. -/
theorem Run.start_inv {r : Run} (hwf : r.cfg.wf = true) : r.start.Inv :=
  (State.Inv.resetBy (s := r.start) hwf r.image).withInputs r.presented [] false r.acks

/-- After any number of steps a run is in a state of the invariant, and no reset comes. -/
theorem Run.after_inv {r : Run} (hwf : r.cfg.wf = true) (k : Nat) :
    ∃ t, r.after k = .next t ∧ t.Inv ∧ t.noReset := by
  refine run_keeps (P := fun s => s.Inv ∧ s.noReset) (fun s ⟨hinv, hn⟩ => ?_) k ⟨Run.start_inv hwf, r.start_noReset⟩
  obtain ⟨t, ht⟩ := stepNeverStopsUnderTheInvariant s hinv
  exact ⟨t, ht, stepKeepsTheInvariant s t hinv ht, step_noReset hn ht⟩

theorem Run.inv_of_after {r : Run} {k : Nat} {t : State} (hwf : r.cfg.wf = true) (h : r.after k = .next t) :
    t.Inv ∧ t.noReset := by
  obtain ⟨u, hu, hinv⟩ := Run.after_inv hwf k
  obtain rfl : u = t := Host.Outcome.next.inj (hu.symm.trans h)
  exact hinv

/-- What a run comes to later is what the machine makes of the state it is in. -/
theorem Run.after_of_le {r : Run} {j k : Nat} {s : State} (h : r.after j = .next s) (hjk : j ≤ k) :
    r.after k = run (k - j) s := by
  have happend : run (j + (k - j)) r.start = run (k - j) s := run_append h
  rwa [Nat.add_sub_cancel' hjk] at happend

/-! ### The result of a run (R138) -/

/-- The port of a block that is over holds no word, so a step leaves it over, with its `FB`, `TRACE` and `STATUS`. -/
theorem step_keeps_over {s : State} (hwf : s.cfg.wf = true) (hn : s.noReset) (h : s.over = true) :
    ∃ t, step s = .next t ∧ t.cfg.wf = true ∧ t.noReset ∧ t.over = true ∧ t.result = s.result := by
  have hstep := step_of_over hwf hn h
  obtain ⟨hwords, hidle⟩ := (over_iff s).1 h
  have hover : s.tick.over = true :=
    (over_iff s.tick).2 ⟨fun w hw => hwords w ((heldCommands_suffix _).mem hw), hidle⟩
  exact ⟨_, hstep, hwf, step_noReset hn hstep, hover, (result_of_over hover).trans (result_of_over h).symm⟩

/-- The same for any number of steps. -/
theorem run_of_over {s : State} (hwf : s.cfg.wf = true) (hn : s.noReset) (h : s.over = true) (k : Nat) :
    ∃ t, run k s = .next t ∧ t.result = s.result := by
  have hstep (u : State) : u.cfg.wf = true ∧ u.noReset ∧ u.over = true ∧ u.result = s.result →
      ∃ t, step u = .next t ∧ t.cfg.wf = true ∧ t.noReset ∧ t.over = true ∧ t.result = s.result := by
    rintro ⟨hwf, hn, hover, hresult⟩
    rw [← hresult]
    exact step_keeps_over hwf hn hover
  obtain ⟨t, ht, -, -, -, hresult⟩ := run_keeps hstep k ⟨hwf, hn, h, rfl⟩
  exact ⟨t, ht, hresult⟩

/-- A result, once there, stays. -/
theorem Run.resultAt_mono {r : Run} (hwf : r.cfg.wf = true) {j k : Nat} {x : Memory × List Event × U32}
    (h : r.resultAt j = some x) (hjk : j ≤ k) : r.resultAt k = some x := by
  obtain ⟨s, hs, hover, rfl⟩ := resultAt_eq_some h
  obtain ⟨hinv, hn⟩ := Run.inv_of_after hwf hs
  obtain ⟨t, ht, hresult⟩ := run_of_over hinv.admitted hn hover (k - j)
  rw [resultAt_of_next ((Run.after_of_le hs hjk).trans ht), hresult, result_of_over hover]

theorem Run.hasResult_unique {r : Run} (hwf : r.cfg.wf = true) {x y : Memory × List Event × U32}
    (hx : r.HasResult x) (hy : r.HasResult y) : x = y := by
  obtain ⟨j, hj⟩ := hx
  obtain ⟨k, hk⟩ := hy
  have hx := Run.resultAt_mono hwf hj (Nat.le_max_left j k)
  have hy := Run.resultAt_mono hwf hk (Nat.le_max_right j k)
  exact Option.some.inj (hx.symm.trans hy)

theorem result_eq_some_iff (s : State) : s.result = some (s.fb, s.trace, s.statusWord) ↔ s.over = true := by
  cases h : s.over <;> simp [State.result, h]

theorem endedWell_iff (s : State) : s.endedWell = true ↔ s.result ≠ none ∧ s.fault = false := by
  rw [Ne, result_eq_none_iff]
  simp [State.endedWell]

/-- Settles O58, by what `over` says and by a block that is over staying so. -/
theorem runHasAResultExactlyWhenOver : Obligations.RunHasAResultExactlyWhenOver := by
  intro r hwf
  refine ⟨rfl, fun k t ht => ?_, fun j k x hj hjk => Run.resultAt_mono hwf hj hjk,
    fun x y => Run.hasResult_unique hwf⟩
  rw [resultAt_of_next ht, ← over_iff, Bool.not_eq_true]
  exact ⟨result_eq_some_iff t, result_eq_none_iff t, endedWell_iff t⟩

/-! ### A run that cannot end (R138, R109, R110) -/

/-- A block that will never be over: stopped by a fault with a word left, or hung in a transport call. -/
def State.Stuck (s : State) : Prop :=
  (s.Inv ∧ s.noReset ∧ s.fault = true ∧ ∃ w, some w ∈ s.cmdIn) ∨ s.Hung

theorem State.Stuck.not_over {s : State} (h : s.Stuck) : s.over = false := by
  rcases h with ⟨-, -, -, w, hw⟩ | h
  · exact Bool.eq_false_iff.2 fun hover => ((over_iff s).1 hover).1 w hw
  · exact h.not_over

/-- A step of such a block accepts nothing and leaves it as it is. -/
theorem State.Stuck.step_eq {s : State} (h : s.Stuck) :
    ∃ t, step s = .next t ∧ t.Stuck ∧ t.cmdIn = heldCommands s.cmdIn := by
  rcases h with ⟨hinv, hn, hf, w, hw⟩ | h
  · have hstep := step_of_not_ready hinv.admitted (rstNow_nil hn.1) (hinv.faultRegisters.2 hf).1 (cmdReady_of_fault hf)
    exact ⟨_, hstep, .inl ⟨hinv.tick.released, step_noReset hn hstep, hf, w, mem_heldCommands hw⟩, rfl⟩
  · exact ⟨_, h.step_eq, .inr (h.withCmds _), rfl⟩

/-- However many steps it takes, it is stuck and every word left stays at the port. -/
theorem State.Stuck.run_eq {s : State} (h : s.Stuck) (k : Nat) :
    ∃ t, run k s = .next t ∧ t.Stuck ∧ ∀ w, some w ∈ s.cmdIn → some w ∈ t.cmdIn := by
  refine run_keeps (P := fun t => t.Stuck ∧ ∀ w, some w ∈ s.cmdIn → some w ∈ t.cmdIn) (fun u ⟨hu, hwords⟩ => ?_) k
    ⟨h, fun _ hw => hw⟩
  obtain ⟨t, ht, hstuck, hcmd⟩ := hu.step_eq
  exact ⟨t, ht, hstuck, fun w hw => hcmd ▸ mem_heldCommands (hwords w hw)⟩

/-- Settles O59: both premises leave the run stuck, and a result it had before would have stayed. -/
theorem neverAcceptedWordLeavesNoResult : Obligations.NeverAcceptedWordLeavesNoResult := by
  intro r j s hwf hs hpremise
  obtain ⟨hinv, hn⟩ := Run.inv_of_after hwf hs
  have hstuck : s.Stuck := hpremise.imp (fun ⟨hf, hw⟩ => ⟨hinv, hn, hf, hw⟩)
    (fun ⟨hreq, hack, hrest⟩ => ⟨hinv, hn, hreq, hack, hrest⟩)
  have hlater (k : Nat) (hjk : j ≤ k) :
      ∃ t, r.after k = .next t ∧ t.over = false ∧ ∀ w, some w ∈ s.cmdIn → some w ∈ t.cmdIn := by
    obtain ⟨t, ht, hstuck', hwords⟩ := hstuck.run_eq (k - j)
    exact ⟨t, (Run.after_of_le hs hjk).trans ht, hstuck'.not_over, hwords⟩
  refine ⟨hlater, fun x ⟨k, hk⟩ => ?_⟩
  obtain ⟨t, ht, hover, -⟩ := hlater (max j k) (Nat.le_max_left j k)
  have hresult := Run.resultAt_mono hwf hk (Nat.le_max_right j k)
  rw [resultAt_of_next ht, (result_eq_none_iff t).2 hover] at hresult
  cases hresult

/-! ### A run of legal words (R138, R137) -/

/-- The word is a legal command whose operands lie on the panel (30_encoding R54). -/
def Legal (c : Config) (w : U32) : Prop := ∃ i, decode w = .instr i ∧ i.onPanel c = true

/-- On a well-formed attachment a command on the panel takes no fault (60_exceptions R103, R104). -/
theorem exec_no_fault {i : Instr} {s t : State} (hb : s.cfg.fbAttached = true) (hp : i.onPanel s.cfg = true)
    (h : exec i s = .next t) : t.fault = s.fault := by
  obtain ⟨-, ⟨hb', -⟩ | ⟨-, v, y, x, rfl, hoff, -⟩ | ⟨-, -, rfl⟩ | ⟨-, _, -, rfl⟩ | ⟨-, _, _, _, -, -, -, rfl⟩ |
    ⟨_, _, -, rfl⟩ | ⟨-, _, _, -, rfl⟩⟩ := exec_cases h
  · rw [hb] at hb'; cases hb'
  · exact absurd (by simpa [Instr.onPanel] using hp) hoff
  all_goals rfl

theorem acceptWord_no_fault {w : U32} {s t : State} (hb : s.cfg.fbAttached = true) (hw : Legal s.cfg w)
    (h : acceptWord w s = .next t) : t.fault = s.fault := by
  obtain ⟨i, hd, hp⟩ := hw
  exact exec_no_fault hb hp ((acceptWord_of_instr hd s).symm.trans h)

/-- A live block on a well-formed attachment with nothing but legal words still to come. -/
structure State.WellFed (s : State) : Prop where
  live : s.Live
  attached : s.cfg.fbAttached = true
  legal : ∀ w, some w ∈ s.cmdIn → Legal s.cfg w

namespace State.WellFed

variable {s : State}

theorem of_step (h : s.WellFed) {t : State} (hs : step s = .next t) (hlive : t.Live) : t.WellFed where
  live := hlive
  attached := by rw [step_cfg hs]; exact h.attached
  legal w hw := by rw [step_cfg hs]; exact h.legal w ((step_cmdIn_suffix hs).mem hw)

/-- In `S_IDLE` it takes what stands at the port, and no fault. -/
theorem step_idle (h : s.WellFed) (hq : s.seq = .idle) :
    ∃ t, step s = .next t ∧ t.WellFed ∧ t.cmdIn = s.cmdIn.tail := by
  obtain ⟨t, ht⟩ := stepNeverStopsUnderTheInvariant s h.live.inv
  obtain ⟨hbusy, -⟩ := controlOk_idle h.live.inv.control hq
  have hready : s.cmdReady = true := by simp [State.cmdReady, h.live.noFault, hbusy]
  have hf : t.fault = false := by
    rcases step_ready_cases h.live.noReset hq hready ht with ⟨w, rest, hcmd, ha⟩ | ⟨-, rfl⟩
    · have hlegal : Legal s.cfg w := h.legal w (hcmd ▸ List.mem_cons_self)
      exact (acceptWord_no_fault (s := s.tick.popCommand) h.attached hlegal ha).trans h.live.noFault
    · exact h.live.noFault
  exact ⟨t, ht, h.of_step ht (h.live.of_step ht hf), step_cmdIn_of_ready h.live.noReset hq hready ht⟩

/-- What is left of a run: the inputs at the command port, and before the next of them the running command. -/
def workLeft (s : State) : ℕ ×ₗ ℕ := toLex (s.cmdIn.length, s.stepsLeft)

/-- As long as it is not over a step brings it nearer to that. -/
theorem step_towards_over (h : s.WellFed) (hover : ¬s.over = true) :
    ∃ t, step s = .next t ∧ t.WellFed ∧ workLeft t < workLeft s := by
  by_cases hq : s.seq = .idle
  · obtain ⟨t, ht, hfed, hcmd⟩ := h.step_idle hq
    refine ⟨t, ht, hfed, Prod.Lex.toLex_lt_toLex.2 (.inl ?_)⟩
    change t.cmdIn.length < s.cmdIn.length
    rw [hcmd]
    cases hc : s.cmdIn with
    | nil =>
      obtain ⟨hbusy, hphase⟩ := controlOk_idle h.live.inv.control hq
      exact absurd ((over_iff s).2 ⟨by simp [hc], hbusy, hq, hphase⟩) hover
    | cons c rest => exact Nat.lt_succ_self _
  · obtain ⟨t, ht, hlive, -, hlt⟩ := h.live.step_running hq
    have hle : t.cmdIn.length ≤ s.cmdIn.length := (step_cmdIn_suffix ht).length_le
    exact ⟨t, ht, h.of_step ht hlive, Prod.Lex.toLex_lt_toLex'.2 ⟨hle, fun _ => hlt⟩⟩

end State.WellFed

/-- Settles O60: the start of the run is well fed, and what is left of it goes down until it is over. -/
theorem runOfLegalWordsEndsWell : Obligations.RunOfLegalWordsEndsWell := by
  intro r hwf hb hrest hlegal
  have hstart : r.start.WellFed :=
    ⟨⟨Run.start_inv hwf, r.start_noReset, rfl, hrest⟩, hb, fun w hw => hlegal w (List.mem_filterMap.2 ⟨_, hw, rfl⟩)⟩
  obtain ⟨k, t, ht, hfed, hover⟩ := run_reaches (Q := fun t => t.over = true) State.WellFed.workLeft
    (fun _ hu hover => hu.step_towards_over hover) hstart
  have hafter : r.after k = .next t := ht
  refine ⟨⟨k, t, hafter, ?_⟩, _, k, (resultAt_of_next hafter).trans (result_of_over hover)⟩
  rw [State.endedWell, hover, hfed.live.noFault]
  rfl

end Sys2Proof.Machine

/-! PROOFS. The states right after reset (70_reset section 1): they meet the invariant and the grammar of the trace,
and the step that releases `rst` accepts nothing. -/

namespace Sys2Proof.Machine

/-- A block in `S_IDLE` that has emitted nothing stands outside a frame. -/
theorem State.traceOk_of_idle {s : State} (hq : s.seq = .idle) (htrace : s.trace = []) : s.traceOk := by
  refine ⟨.outside, ?_, ?_⟩
  · rw [htrace]; rfl
  · simp [State.atPos, hq]

/-- The state right after reset is the one a reset step leaves, with `rst` released. -/
theorem State.powerOn_inv {c : Config} (hwf : c.wf = true) (img : ResetImage) : (State.powerOn c img).Inv :=
  (State.Inv.resetBy (s := State.powerOn c img) hwf img).released

/-- `State.reset` lists no byte of `FB` and holds the `ROW_WORDS` words of the representative panel (log 2, 3, 4). -/
theorem State.reset_inv : State.reset.Inv where
  admitted := by decide
  fbWf := rfl
  fbBelow := rfl
  scratchLength := List.length_replicate
  delay := rfl
  faultRegisters := ⟨fun _ => ⟨rfl, rfl⟩, nofun⟩
  control := ⟨rfl, rfl, rfl⟩
  pixelMode := nofun

/-- Settles O13: both are a ready block with an empty trace, over memories of the panel's size. -/
theorem resetStatesMeetTheInvariant : Obligations.ResetStatesMeetTheInvariant :=
  ⟨fun _ img hwf => ⟨State.powerOn_inv hwf img, State.traceOk_of_idle rfl rfl⟩,
    State.reset_inv, State.traceOk_of_idle rfl rfl⟩

/-- Settles O12: the step passes at the two inputs and takes `rst` back, with no look at the command port's word. -/
theorem resetReleaseAcceptsNothing : Obligations.ResetReleaseAcceptsNothing :=
  fun _ hwf hr hi => step_of_inReset hwf hr hi

end Sys2Proof.Machine
